-- ==== Sys2Proof/Word.lean ====
section
/-! DEFINITION. The word types of EFC02-ARQ: 32-bit registers, sequences and tags (00_scope.md R6, R8), bytes of the two buffers
and of the wire (R7), and 16-bit wire fields. -/

namespace Sys2Proof

/-- One byte of a buffer, a payload or a wire field (00_scope.md R7). -/
abbrev Byte := BitVec 8

/-- A 16-bit wire field: a port, a window or a reserved field (30_encoding.md R110). -/
abbrev Half := BitVec 16

/-- A 32-bit register, sequence number, tag or command word (00_scope.md R6, R8). -/
abbrev Word := BitVec 32

end Sys2Proof
end

