-- ==== Sys2Proof/Syntax.lean ====
section
/-! DEFINITION. The commands of EFC02-ARQ: one constructor per row of spec/opcode_table.json (30_encoding.md R103). A command's
operands are in ARG0-ARG3 and IBUF; the word itself carries only the F and LEN fields that R101 lets a command use. -/

namespace Sys2Proof

/-- One command word, decoded (30_encoding.md R101, R103). LEN is an unsigned byte count (R104); F bits are named by what they select (R105). -/
inductive Instr where
  /-- NOP (43_control.md R280). -/
  | nop
  /-- CLR (43_control.md R281): F[0] the latch, F[1] DLV, F[2] EVT, F[3] the two counters. -/
  | clr (latch dlv evt counters : Bool)
  /-- ENC_FRAME (40_codec.md R146): LEN is the payload length. -/
  | encFrame (len : Nat)
  /-- DEC_FRAME (40_codec.md R150): LEN is the datagram length. -/
  | decFrame (len : Nat)
  /-- ENC_SEG (40_codec.md R154): LEN is the payload length. -/
  | encSeg (len : Nat)
  /-- DEC_SEG (40_codec.md R158): LEN is the datagram length. -/
  | decSeg (len : Nat)
  /-- RB_PUSH (41_reorder.md R180). -/
  | rbPush
  /-- RB_SETEXP (41_reorder.md R200). -/
  | rbSetexp
  /-- DLV_POP (41_reorder.md R202). -/
  | dlvPop
  /-- TW_INIT (42_txwindow_timers.md R220): F[0] also resets the RTO estimator. -/
  | twInit (estRst : Bool)
  /-- TW_ADMIT (42_txwindow_timers.md R222). -/
  | twAdmit
  /-- TW_ACK (42_txwindow_timers.md R226). -/
  | twAck
  /-- TW_ARM (42_txwindow_timers.md R236). -/
  | twArm
  /-- TW_CANCEL (42_txwindow_timers.md R238). -/
  | twCancel
  /-- TW_STOP (42_txwindow_timers.md R240). -/
  | twStop
  /-- RTO_SAMPLE (42_txwindow_timers.md R243). -/
  | rtoSample
  deriving DecidableEq, Repr

end Sys2Proof
end

