-- ==== Sys2Proof/WellFormed.lean ====
section
/-! DEFINITION. Which terms of `Instr` a command word can carry: LEN is a 16-bit field (30_encoding.md R101). A LEN over a
command's own limit (R104) is a well-formed command that fails with BAD_LEN when it completes. -/

namespace Sys2Proof

/-- The value fits the 16-bit LEN field of the command word (30_encoding.md R101). -/
abbrev lenFits (len : Nat) : Bool := decide (len < 65536)

/-- The command can be written as one command word (30_encoding.md R101): every LEN is a 16-bit count. -/
def Instr.wellFormed : Instr → Bool
  | .nop => true
  | .clr _ _ _ _ => true
  | .encFrame len => lenFits len
  | .decFrame len => lenFits len
  | .encSeg len => lenFits len
  | .decSeg len => lenFits len
  | .rbPush => true
  | .rbSetexp => true
  | .dlvPop => true
  | .twInit _ => true
  | .twAdmit => true
  | .twAck => true
  | .twArm => true
  | .twCancel => true
  | .twStop => true
  | .rtoSample => true

end Sys2Proof
end

