-- ==== Sys2Proof/Decode.lean ====
section
/-! DEFINITION. The decoder and the encoder of command words (30_encoding.md R101-R105). -/

namespace Sys2Proof

/-- Why a word is no command (30_encoding.md R102). -/
inductive DecodeError where
  /-- OPC is none of the 16 opcodes of R103. -/
  | badOpc
  /-- A reserved F or LEN bit is 1 (R101). -/
  | rsvd
  deriving DecidableEq, Repr

/-- OPC, bits [7:0] of a command word (30_encoding.md R101). -/
def opcField (w : Word) : BitVec 8 := w.extractLsb' 0 8

/-- F, bits [15:8] of a command word (30_encoding.md R101). -/
def flagField (w : Word) : BitVec 8 := w.extractLsb' 8 8

/-- LEN, bits [31:16] of a command word (30_encoding.md R101). -/
def lenField (w : Word) : BitVec 16 := w.extractLsb' 16 16

/-- A command whose reserved bits are all 0, or RSVD (30_encoding.md R102). -/
def unlessReserved (clear : Bool) (i : Instr) : Except DecodeError Instr :=
  if clear then .ok i else .error .rsvd

/-- A CMD-R command: every F and LEN bit is reserved (30_encoding.md R101). -/
def decodeR (w : Word) (i : Instr) : Except DecodeError Instr :=
  unlessReserved (flagField w == 0#8 && lenField w == 0#16) i

/-- A CMD-L command: LEN is used and F is reserved (30_encoding.md R101). -/
def decodeL (w : Word) (mk : Nat → Instr) : Except DecodeError Instr :=
  unlessReserved (flagField w == 0#8) (mk (lenField w).toNat)

/-- CLR, a CMD-F command: F[3:0] are used, F[7:4] and LEN are reserved (30_encoding.md R101, R105). -/
def decodeClr (w : Word) : Except DecodeError Instr :=
  let f := flagField w
  unlessReserved (f.extractLsb' 4 4 == 0#4 && lenField w == 0#16)
    (.clr (f.getLsbD 0) (f.getLsbD 1) (f.getLsbD 2) (f.getLsbD 3))

/-- TW_INIT, a CMD-F command: F[0] is used, F[7:1] and LEN are reserved (30_encoding.md R101, R105). -/
def decodeTwInit (w : Word) : Except DecodeError Instr :=
  let f := flagField w
  unlessReserved (f.extractLsb' 1 7 == 0#7 && lenField w == 0#16) (.twInit (f.getLsbD 0))

/-- Command decode (30_encoding.md R102, R103): total; OPC first, then the reserved bits. -/
def decode (w : Word) : Except DecodeError Instr :=
  match opcField w with
  | 0x00#8 => decodeR w .nop
  | 0x01#8 => decodeClr w
  | 0x10#8 => decodeL w .encFrame
  | 0x11#8 => decodeL w .decFrame
  | 0x12#8 => decodeL w .encSeg
  | 0x13#8 => decodeL w .decSeg
  | 0x20#8 => decodeR w .rbPush
  | 0x21#8 => decodeR w .rbSetexp
  | 0x22#8 => decodeR w .dlvPop
  | 0x30#8 => decodeTwInit w
  | 0x31#8 => decodeR w .twAdmit
  | 0x32#8 => decodeR w .twAck
  | 0x33#8 => decodeR w .twArm
  | 0x34#8 => decodeR w .twCancel
  | 0x35#8 => decodeR w .twStop
  | 0x36#8 => decodeR w .rtoSample
  | _ => .error .badOpc

/-- The opcode of a command (30_encoding.md R103). -/
def Instr.opcode : Instr → BitVec 8
  | .nop => 0x00#8
  | .clr _ _ _ _ => 0x01#8
  | .encFrame _ => 0x10#8
  | .decFrame _ => 0x11#8
  | .encSeg _ => 0x12#8
  | .decSeg _ => 0x13#8
  | .rbPush => 0x20#8
  | .rbSetexp => 0x21#8
  | .dlvPop => 0x22#8
  | .twInit _ => 0x30#8
  | .twAdmit => 0x31#8
  | .twAck => 0x32#8
  | .twArm => 0x33#8
  | .twCancel => 0x34#8
  | .twStop => 0x35#8
  | .rtoSample => 0x36#8

/-- The F field of a command: CLR and TW_INIT alone use it (30_encoding.md R105). -/
def Instr.flags : Instr → BitVec 8
  | .clr l d e c =>
    0#4 ++ (BitVec.ofBool c ++ (BitVec.ofBool e ++ (BitVec.ofBool d ++ BitVec.ofBool l)))
  | .twInit r => 0#7 ++ BitVec.ofBool r
  | _ => 0#8

/-- The LEN field of a command: the four codec commands alone use it (30_encoding.md R101). -/
def Instr.lenBits : Instr → BitVec 16
  | .encFrame len | .decFrame len | .encSeg len | .decSeg len => BitVec.ofNat 16 len
  | _ => 0#16

/-- The command word, `LEN << 16 | F << 8 | OPC` (30_encoding.md R101). -/
def encode (i : Instr) : Word := i.lenBits ++ (i.flags ++ i.opcode)

/-- What the decoder reads from a row's word: the command word is one 32-bit register, so its bits are numbered as the table
numbers them, and a table row has all 32 of them (30_encoding.md R100). -/
def decodeTableWord (nbits w : Nat) : Option Instr :=
  let v := w % 2 ^ nbits
  if v < 2 ^ 32 then (decode (BitVec.ofNat 32 v)).toOption else none

end Sys2Proof
end

