-- ==== Sys2Proof/Config.lean ====
section
/-! DEFINITION. What a build fixes: the parameters of 00_scope.md R5 at their default values, the OPEN parameters as opaque
constants that no proof can see into, and the free value of the buffers at power-on (20_memory.md R84). -/

namespace Sys2Proof.Config

/-! ### Build parameters, at the defaults of R5 (log 5) -/

/-- WIN_MAX (R5): the largest window N of TW and RB. -/
abbrev winMax : Nat := 32

/-- TIMER_SLOTS (R5): the size of the SR timer pool. -/
abbrev timerSlots : Nat := 64

/-- ROB_SLOTS (R5): the number of reorder slots. -/
abbrev robSlots : Nat := 32

/-- MAX_PAYLOAD (R5): the longest payload RB stores or delivers. -/
abbrev maxPayload : Nat := 1003

/-- DLV_DEPTH (R5): the number of delivery-queue entries. -/
abbrev dlvDepth : Nat := 64

/-- EVT_DEPTH (R5): the number of event-FIFO entries. -/
abbrev evtDepth : Nat := 64

/-- RTO_MIN (R5): the lower clamp of RTO, in ticks. -/
abbrev rtoMin : Nat := 200

/-- RTO_MAX (R5): the upper clamp of RTO, in ticks. -/
abbrev rtoMax : Nat := 5000

/-- SRTT_INIT (R5): the smoothed RTT at reset, in ticks. -/
abbrev srttInit : Nat := 1000

/-- RTTVAR_INIT (R5): the RTT deviation at reset, in ticks. -/
abbrev rttvarInit : Nat := 0

/-- IBUF_BYTES and OBUF_BYTES (R5): the size of each buffer. -/
abbrev bufBytes : Nat := 1024

/-! ### OPEN parameters (R5, 93_implementation_defined.md): no body, so nothing can be proved of their values (log 4) -/

/-- The candidates 40_codec.md R143 defines for DIGEST_FN, and "another total deterministic 32-bit function" (R5). -/
inductive DigestChoice where
  | crc32
  | md5t
  | sha256t
  | other
  deriving DecidableEq, Repr, Inhabited

/-- DIGEST_FN (R140): which function this build uses. OPEN. -/
opaque digestChoice : DigestChoice

/-- The build's digest where it is none of the three candidates of R143. OPEN; only total and deterministic (R140). -/
opaque otherDigest : List Byte → Word

/-- TYPE_DATA (30_encoding.md R114): the type byte of a data frame. OPEN, default 0x00. -/
opaque typeData : Byte

/-- TYPE_ACK (30_encoding.md R114): the type byte of an ACK frame. OPEN, default 0x01. No command reads it: the host does (R226, R285). -/
opaque typeAck : Byte

/-- The two values of SR_SLIDE (R5). -/
inductive SrSlide where
  | skip
  | contiguous
  deriving DecidableEq, Repr, Inhabited

/-- SR_SLIDE (42_txwindow_timers.md R230, R231): the SR base-sliding rule. OPEN, default SKIP. -/
opaque srSlide : SrSlide

/-- GIVEUP_SLIDES (42_txwindow_timers.md R257): whether a give-up at the base runs the slide. OPEN, default 1. -/
opaque giveupSlides : Bool

/-- The two values of RTTVAR_ORDER (R5). -/
inductive RttvarOrder where
  | old
  | new
  deriving DecidableEq, Repr, Inhabited

/-- RTTVAR_ORDER (42_txwindow_timers.md R243, R245): which smoothed RTT the deviation error uses. OPEN, default OLD. -/
opaque rttvarOrder : RttvarOrder

/-! ### Free values -/

/-- What a buffer byte reads as that nothing has written since the hardware reset numbered by the first argument, at the host
address of the second (20_memory.md R84: "returning any value"). A free value (log 3). -/
opaque powerOnByte : Nat → Nat → Byte

end Sys2Proof.Config
end

