-- ==== Sys2Proof/Machine/Bits.lean ====
section
/-! DEFINITION. Sequence arithmetic (00_scope.md R8), the big-endian wire helpers (R7, 20_memory.md R82) and the small integer
helpers that the rules share. -/

namespace Sys2Proof.Machine

/-! ### Sequence arithmetic (R8) -/

/-- `dist(a, b) = (b - a) mod 2^32`: the forward distance from a to b (R8). -/
def dist (a b : Word) : Word := b - a

/-- `behind(s, x)`: s lies in the half of the sequence space before x (R8). -/
def behind (s x : Word) : Bool := decide (2 ^ 31 ≤ (dist x s).toNat)

/-- `ahead(s, x)`: s lies strictly in the half after x (R8). -/
def ahead (s x : Word) : Bool := decide (0 < (dist x s).toNat ∧ (dist x s).toNat < 2 ^ 31)

/-- `inwin(s, x, n)`: s is one of the n sequences from x on (R8). -/
def inwin (s x : Word) (n : Nat) : Bool := decide ((dist x s).toNat < n)

/-! ### Big-endian fields (R7) -/

/-- `be16(x)`: two bytes, most significant first (R7). -/
def be16 (x : Half) : List Byte := [x.extractLsb' 8 8, x.extractLsb' 0 8]

/-- `be32(x)`: four bytes, most significant first (R7). -/
def be32 (x : Word) : List Byte :=
  [x.extractLsb' 24 8, x.extractLsb' 16 8, x.extractLsb' 8 8, x.extractLsb' 0 8]

/-- `B[i]`; a rule never reads past its own byte sequence, so the default is never seen (R7). -/
def byteOf (bs : List Byte) (i : Nat) : Byte := bs.getD i 0#8

/-- `rd_be16(B, i)` (R7). -/
def rdBe16 (bs : List Byte) (i : Nat) : Half := byteOf bs i ++ byteOf bs (i + 1)

/-- `rd_be32(B, i)` (R7). -/
def rdBe32 (bs : List Byte) (i : Nat) : Word :=
  byteOf bs i ++ (byteOf bs (i + 1) ++ (byteOf bs (i + 2) ++ byteOf bs (i + 3)))

/-! ### Little-endian lanes of a host access (20_memory.md R83) -/

/-- The bytes a 32-bit access moves, byte a first (R83). -/
def lanes (x : Word) : List Byte :=
  [x.extractLsb' 0 8, x.extractLsb' 8 8, x.extractLsb' 16 8, x.extractLsb' 24 8]

/-- The word whose lanes are the bytes at a, a+1, a+2 and a+3 (R83). -/
def fromLanes (b0 b1 b2 b3 : Byte) : Word := b3 ++ (b2 ++ (b1 ++ b0))

/-! ### Numbers -/

/-- `clamp(v, lo, hi)` (42_txwindow_timers.md R243). -/
def clamp (v lo hi : Nat) : Nat := if v < lo then lo else if hi < v then hi else v

/-- The RTO clamp of the build (R5, R243). -/
def clampRto (v : Nat) : Nat := clamp v Config.rtoMin Config.rtoMax

/-- The WARL rule of an N field: 0 is stored as 1, a value over WIN_MAX as WIN_MAX (10_state.md R32). -/
def warlN (v : BitVec 8) : BitVec 8 :=
  if v = 0#8 then 1#8 else if Config.winMax < v.toNat then BitVec.ofNat 8 Config.winMax else v

/-- The WARL rule of TW_TIMEOUT: a written 0 is stored as 1 (10_state.md R34). -/
def warlTimeout (v : BitVec 24) : BitVec 24 := if v = 0#24 then 1#24 else v

/-- An 8-bit counter that stays at 255 (42_txwindow_timers.md R255, R256). -/
def satInc (v : BitVec 8) : BitVec 8 := if v = 255#8 then v else v + 1#8

/-- A bit as a number. -/
def bitNat (b : Bool) : Nat := if b then 1 else 0

/-- The number whose bit i, for i < n, is `f i`: how the derived bitmaps are read (10_state.md R37, R44). -/
def bitmapNat (f : Nat → Bool) : Nat → Nat
  | 0 => 0
  | n + 1 => bitmapNat f n + (if f n then 2 ^ n else 0)

/-- A 32-bit map register: bit i reads `f i` (10_state.md R37, R44). -/
def bitmap (f : Nat → Bool) : Word := BitVec.ofNat 32 (bitmapNat f 32)

end Sys2Proof.Machine
end

