-- ==== Sys2Proof/Machine/Digest.lean ====
section
/-! DEFINITION. The integrity digest: the three candidates of 40_codec.md R143 and DIGEST_FN, the one this build uses (R140). -/

namespace Sys2Proof.Machine

/-! ### CRC32 (R143) -/

/-- One bit of the CRC (R143). -/
def crcBit (c : Word) : Word :=
  if c.getLsbD 0 then (c >>> 1) ^^^ 0xEDB88320#32 else c >>> 1

/-- One byte of the CRC: eight bits (R143). -/
def crcByte (c : Word) (b : Byte) : Word :=
  crcBit (crcBit (crcBit (crcBit (crcBit (crcBit (crcBit (crcBit (c ^^^ b.setWidth 32))))))))

/-- CRC32: CRC-32/ISO-HDLC (R143). -/
def crc32 (bs : List Byte) : Word := bs.foldl crcByte 0xFFFFFFFF#32 ^^^ 0xFFFFFFFF#32

/-! ### What MD5 and SHA-256 share: padding to 64-byte blocks (RFC 1321, FIPS 180-4; log 10) -/

/-- The message, a 1 bit, zeros and the 8 bytes of its length in bits. -/
def padBlocks (bs : List Byte) (lengthBytes : List Byte) : List Byte :=
  bs ++ [0x80#8] ++ List.replicate ((119 - bs.length % 64) % 64) 0#8 ++ lengthBytes

/-- The message length in bits, as 8 bytes, least significant first. -/
def bitLengthLE (bs : List Byte) : List Byte :=
  (List.range 8).map fun i => BitVec.ofNat 8 (8 * bs.length / 2 ^ (8 * i))

/-- A state of some words run through every 64-byte block in turn. -/
def overBlocks {S : Type} (step : S → List Byte → S) : Nat → S → List Byte → S
  | 0, st, _ => st
  | n + 1, st, bs => overBlocks step n (step st (bs.take 64)) (bs.drop 64)

/-- Word i of a block, in a list of words. -/
def wordOf (ws : List Word) (i : Nat) : Word := ws.getD i 0#32

/-! ### MD5, truncated to its first 4 bytes (R143) -/

/-- The additive constants of MD5 (RFC 1321), round 1. -/
def md5K1 : List Word :=
  [0xd76aa478#32, 0xe8c7b756#32, 0x242070db#32, 0xc1bdceee#32, 0xf57c0faf#32, 0x4787c62a#32, 0xa8304613#32, 0xfd469501#32,
   0x698098d8#32, 0x8b44f7af#32, 0xffff5bb1#32, 0x895cd7be#32, 0x6b901122#32, 0xfd987193#32, 0xa679438e#32, 0x49b40821#32]

/-- The additive constants of MD5, round 2. -/
def md5K2 : List Word :=
  [0xf61e2562#32, 0xc040b340#32, 0x265e5a51#32, 0xe9b6c7aa#32, 0xd62f105d#32, 0x02441453#32, 0xd8a1e681#32, 0xe7d3fbc8#32,
   0x21e1cde6#32, 0xc33707d6#32, 0xf4d50d87#32, 0x455a14ed#32, 0xa9e3e905#32, 0xfcefa3f8#32, 0x676f02d9#32, 0x8d2a4c8a#32]

/-- The additive constants of MD5, round 3. -/
def md5K3 : List Word :=
  [0xfffa3942#32, 0x8771f681#32, 0x6d9d6122#32, 0xfde5380c#32, 0xa4beea44#32, 0x4bdecfa9#32, 0xf6bb4b60#32, 0xbebfbc70#32,
   0x289b7ec6#32, 0xeaa127fa#32, 0xd4ef3085#32, 0x04881d05#32, 0xd9d4d039#32, 0xe6db99e5#32, 0x1fa27cf8#32, 0xc4ac5665#32]

/-- The additive constants of MD5, round 4. -/
def md5K4 : List Word :=
  [0xf4292244#32, 0x432aff97#32, 0xab9423a7#32, 0xfc93a039#32, 0x655b59c3#32, 0x8f0ccc92#32, 0xffeff47d#32, 0x85845dd1#32,
   0x6fa87e4f#32, 0xfe2ce6e0#32, 0xa3014314#32, 0x4e0811a1#32, 0xf7537e82#32, 0xbd3af235#32, 0x2ad7d2bb#32, 0xeb86d391#32]

/-- The constants of all 64 steps of MD5. -/
def md5K : List Word := md5K1 ++ md5K2 ++ md5K3 ++ md5K4

/-- The rotation of step i of MD5. -/
def md5Shift (i : Nat) : Nat :=
  let row := if i < 16 then [7, 12, 17, 22] else if i < 32 then [5, 9, 14, 20] else if i < 48 then [4, 11, 16, 23] else [6, 10, 15, 21]
  row.getD (i % 4) 0

/-- The chaining value of MD5. -/
structure Md5State where
  a : Word
  b : Word
  c : Word
  d : Word
  deriving DecidableEq, Repr

/-- The round function and the message index of step i of MD5. -/
def md5Mix (i : Nat) (s : Md5State) : Word × Nat :=
  if i < 16 then ((s.b &&& s.c) ||| (~~~s.b &&& s.d), i)
  else if i < 32 then ((s.d &&& s.b) ||| (~~~s.d &&& s.c), (5 * i + 1) % 16)
  else if i < 48 then (s.b ^^^ s.c ^^^ s.d, (3 * i + 5) % 16)
  else (s.c ^^^ (s.b ||| ~~~s.d), (7 * i) % 16)

/-- Step i of MD5 over the words of one block. -/
def md5Step (ws : List Word) (s : Md5State) (i : Nat) : Md5State :=
  let m := md5Mix i s
  let t := s.a + m.1 + wordOf md5K i + wordOf ws m.2
  { a := s.d, b := s.b + t.rotateLeft (md5Shift i), c := s.b, d := s.c }

/-- One block of MD5; its words are least significant byte first. -/
def md5Block (s : Md5State) (blk : List Byte) : Md5State :=
  let ws := (List.range 16).map fun i =>
    fromLanes (byteOf blk (4 * i)) (byteOf blk (4 * i + 1)) (byteOf blk (4 * i + 2)) (byteOf blk (4 * i + 3))
  let r := (List.range 64).foldl (md5Step ws) s
  { a := s.a + r.a, b := s.b + r.b, c := s.c + r.c, d := s.d + r.d }

/-- MD5T: MD5 of the input, its first 4 output bytes read big-endian (R143). -/
def md5t (bs : List Byte) : Word :=
  let padded := padBlocks bs (bitLengthLE bs)
  let r := overBlocks md5Block (padded.length / 64) ⟨0x67452301#32, 0xefcdab89#32, 0x98badcfe#32, 0x10325476#32⟩ padded
  rdBe32 (lanes r.a) 0

/-! ### SHA-256, truncated to its first 4 bytes (R143) -/

/-- The constants of SHA-256 (FIPS 180-4), steps 0 to 15. -/
def shaK1 : List Word :=
  [0x428a2f98#32, 0x71374491#32, 0xb5c0fbcf#32, 0xe9b5dba5#32, 0x3956c25b#32, 0x59f111f1#32, 0x923f82a4#32, 0xab1c5ed5#32,
   0xd807aa98#32, 0x12835b01#32, 0x243185be#32, 0x550c7dc3#32, 0x72be5d74#32, 0x80deb1fe#32, 0x9bdc06a7#32, 0xc19bf174#32]

/-- The constants of SHA-256, steps 16 to 31. -/
def shaK2 : List Word :=
  [0xe49b69c1#32, 0xefbe4786#32, 0x0fc19dc6#32, 0x240ca1cc#32, 0x2de92c6f#32, 0x4a7484aa#32, 0x5cb0a9dc#32, 0x76f988da#32,
   0x983e5152#32, 0xa831c66d#32, 0xb00327c8#32, 0xbf597fc7#32, 0xc6e00bf3#32, 0xd5a79147#32, 0x06ca6351#32, 0x14292967#32]

/-- The constants of SHA-256, steps 32 to 47. -/
def shaK3 : List Word :=
  [0x27b70a85#32, 0x2e1b2138#32, 0x4d2c6dfc#32, 0x53380d13#32, 0x650a7354#32, 0x766a0abb#32, 0x81c2c92e#32, 0x92722c85#32,
   0xa2bfe8a1#32, 0xa81a664b#32, 0xc24b8b70#32, 0xc76c51a3#32, 0xd192e819#32, 0xd6990624#32, 0xf40e3585#32, 0x106aa070#32]

/-- The constants of SHA-256, steps 48 to 63. -/
def shaK4 : List Word :=
  [0x19a4c116#32, 0x1e376c08#32, 0x2748774c#32, 0x34b0bcb5#32, 0x391c0cb3#32, 0x4ed8aa4a#32, 0x5b9cca4f#32, 0x682e6ff3#32,
   0x748f82ee#32, 0x78a5636f#32, 0x84c87814#32, 0x8cc70208#32, 0x90befffa#32, 0xa4506ceb#32, 0xbef9a3f7#32, 0xc67178f2#32]

/-- The constants of all 64 steps of SHA-256. -/
def shaK : List Word := shaK1 ++ shaK2 ++ shaK3 ++ shaK4

/-- The chaining value of SHA-256. -/
structure ShaState where
  a : Word
  b : Word
  c : Word
  d : Word
  e : Word
  f : Word
  g : Word
  h : Word
  deriving DecidableEq, Repr

/-- The message schedule of SHA-256, held newest word first: n more words after those of the list. -/
def shaSchedule : Nat → List Word → List Word
  | 0, ws => ws
  | n + 1, ws =>
    let w2 := wordOf ws 1
    let w7 := wordOf ws 6
    let w15 := wordOf ws 14
    let w16 := wordOf ws 15
    let s0 := w15.rotateRight 7 ^^^ w15.rotateRight 18 ^^^ (w15 >>> 3)
    let s1 := w2.rotateRight 17 ^^^ w2.rotateRight 19 ^^^ (w2 >>> 10)
    shaSchedule n ((w16 + s0 + w7 + s1) :: ws)

/-- One step of SHA-256, from its constant and its schedule word. -/
def shaStep (s : ShaState) (kw : Word × Word) : ShaState :=
  let s1 := s.e.rotateRight 6 ^^^ s.e.rotateRight 11 ^^^ s.e.rotateRight 25
  let ch := (s.e &&& s.f) ^^^ (~~~s.e &&& s.g)
  let t1 := s.h + s1 + ch + kw.1 + kw.2
  let s0 := s.a.rotateRight 2 ^^^ s.a.rotateRight 13 ^^^ s.a.rotateRight 22
  let maj := (s.a &&& s.b) ^^^ (s.a &&& s.c) ^^^ (s.b &&& s.c)
  { a := t1 + (s0 + maj), b := s.a, c := s.b, d := s.c, e := s.d + t1, f := s.e, g := s.f, h := s.g }

/-- One block of SHA-256; its words are most significant byte first. -/
def shaBlock (s : ShaState) (blk : List Byte) : ShaState :=
  let ws := (shaSchedule 48 ((List.range 16).reverse.map fun i => rdBe32 blk (4 * i))).reverse
  let r := (shaK.zip ws).foldl shaStep s
  { a := s.a + r.a, b := s.b + r.b, c := s.c + r.c, d := s.d + r.d,
    e := s.e + r.e, f := s.f + r.f, g := s.g + r.g, h := s.h + r.h }

/-- The initial chaining value of SHA-256. -/
def shaInit : ShaState :=
  { a := 0x6a09e667#32, b := 0xbb67ae85#32, c := 0x3c6ef372#32, d := 0xa54ff53a#32,
    e := 0x510e527f#32, f := 0x9b05688c#32, g := 0x1f83d9ab#32, h := 0x5be0cd19#32 }

/-- SHA256T: SHA-256 of the input, its first 4 output bytes read big-endian (R143). -/
def sha256t (bs : List Byte) : Word :=
  let padded := padBlocks bs (bitLengthLE bs).reverse
  (overBlocks shaBlock (padded.length / 64) shaInit padded).a

/-! ### DIGEST_FN (R140) -/

/-- The digest function of a build that made this choice (R143). -/
def digestBy (choice : Config.DigestChoice) (bs : List Byte) : Word :=
  match choice with
  | .crc32 => crc32 bs
  | .md5t => md5t bs
  | .sha256t => sha256t bs
  | .other => Config.otherDigest bs

/-- DIGEST_FN: one total deterministic function of the bytes, the same at the encoder and the decoder (R140). The choice is
OPEN, so nothing else can be proved of it (log 4). -/
def digestFn (bs : List Byte) : Word := digestBy Config.digestChoice bs

end Sys2Proof.Machine
end

