-- ==== Sys2Proof/Machine/State.lean ====
section
/-! DEFINITION. Everything the spec gives the block (10_state.md), as plain data, and its reset values (70_reset_and_hazards.md R343). -/

namespace Sys2Proof.Machine

/-! ### Why a run stops -/

/-- The machine stops. Command errors and access faults are NOT here: they are next states with a status bit set (R10, R301, R305). -/
inductive Fault where
  /-- TW_ADMIT would leave an SR unit live while next has advanced 2^31 past it: "A model must treat such a run as outside this
  spec: no rule here gives its result" (42_txwindow_timers.md R260). Raised by `execTwAdmit` only. Safe (log 7). -/
  | liveSpan
  deriving DecidableEq, Repr

/-- The model gives the instruction no meaning. -/
inductive Refusal where
  /-- An instruction that `exec` does not model yet, by its mnemonic in the opcode table. Safe. No arm of `exec` uses it. -/
  | notModelled (mnemonic : String)
  deriving DecidableEq, Repr

/-! ### Names -/

/-- The error codes a command can raise (60_exceptions.md R300). -/
inductive ErrCode where
  | badOpc | rsvd | badLen | mode | wfull | nolatch | dlvRoom | empty | aborted | stopped
  deriving DecidableEq, Repr

/-- MODE of TW_CFG and of RB_CFG (10_state.md R31, R42). -/
inductive Mode where
  | off | gbn | sr | conn
  deriving DecidableEq, Repr

/-- `latch.fmt`: what the last decode parsed (10_state.md R47). -/
inductive Fmt where
  | frame | seg
  deriving DecidableEq, Repr

/-- The event types that are ever emitted (10_state.md R52). -/
inductive EventKind where
  | retx | retxRange | giveup | abort | pexhaust
  deriving DecidableEq, Repr

/-- The size of a host access (20_memory.md R81). -/
inductive AccessSize where
  | byte | word
  deriving DecidableEq, Repr

/-- What happens to the block next: a host access (R81), a tick (R250), the command engine's turn (R53) or a low pulse of rst_n
(R340). A run is a list of them (R91; log 1). -/
inductive Stimulus where
  | read (size : AccessSize) (addr : BitVec 12)
  | write (size : AccessSize) (addr : BitVec 12) (data : Word)
  | tick
  | engine
  | hwReset
  deriving DecidableEq, Repr

/-! ### Parts of the state -/

/-- ARG0 to ARG3 (10_state.md R23). -/
structure Args where
  arg0 : Word
  arg1 : Word
  arg2 : Word
  arg3 : Word
  deriving DecidableEq, Repr

/-- RES0 to RES5 (10_state.md R25). -/
structure Results where
  r0 : Word
  r1 : Word
  r2 : Word
  r3 : Word
  r4 : Word
  r5 : Word
  deriving DecidableEq, Repr

/-- IBUF and OBUF by host address: the bytes that have been written, with the number of the hardware reset that fixes what the
others read as (20_memory.md R84; log 3). -/
structure Memory where
  powerOns : Nat
  cells : List Host.Cell
  deriving DecidableEq, Repr

/-- The decode latch while it is valid (10_state.md R47). -/
structure Latch where
  fmt : Fmt
  ok : Bool
  type : Byte
  seq : Word
  ack : Word
  flags : Byte
  window : Half
  reserved : Half
  payload : List Byte
  deriving DecidableEq, Repr

/-- The stored fields of TW_CFG (10_state.md R31). -/
structure TwCfg where
  mode : Mode
  n : BitVec 8
  maxRetries : BitVec 8
  connLimit : Bool
  deriving DecidableEq, Repr

/-- The shared timer (10_state.md R48). -/
structure SharedTimer where
  armed : Bool
  rem : BitVec 24
  deriving DecidableEq, Repr

/-- A valid SR timer slot (10_state.md R49). -/
structure TimerSlot where
  seq : Word
  rem : BitVec 24
  retries : BitVec 8
  deriving DecidableEq, Repr

/-- The RTO estimator: SRTT8, RTTVAR4 and RTO (10_state.md R40, R242). -/
structure Estimator where
  sa : Word
  sv : Word
  rto : Word
  deriving DecidableEq, Repr

/-- TW: its registers and its internal state (10_state.md R31-R41, R48, R49). -/
structure TxWindow where
  cfg : TwCfg
  timeout : BitVec 24
  base : Word
  next : Word
  shared : SharedTimer
  retry : BitVec 8
  ptag : Word
  abort : Bool
  stopped : Bool
  slots : List (Option TimerSlot)
  est : Estimator
  giveupCnt : Word
  retxCnt : Word
  deriving DecidableEq, Repr

/-- A valid RB slot (10_state.md R50). -/
structure RbSlot where
  seq : Word
  payload : List Byte
  deriving DecidableEq, Repr

/-- RB: RB_CFG, RB_EXP and the slots (10_state.md R42, R44, R50). -/
structure Reorder where
  mode : Mode
  n : BitVec 8
  exp : Word
  slots : List (Option RbSlot)
  deriving DecidableEq, Repr

/-- An entry of the delivery queue (10_state.md R51). -/
structure DlvEntry where
  seq : Word
  payload : List Byte
  deriving DecidableEq, Repr

/-- An entry of the event FIFO (10_state.md R52). -/
structure Event where
  kind : EventKind
  seq : Word
  count : BitVec 16
  deriving DecidableEq, Repr

/-- The whole block (10_state.md R20), with what the host port last returned and the stimuli still to come (log 1, 9). -/
structure State where
  /-- ARG0 to ARG3 (R23). -/
  args : Args
  /-- RES0 to RES5 (R25). -/
  res : Results
  /-- STATUS.ERR (R27). -/
  err : Bool
  /-- STATUS.ERRCODE (R27, R300). -/
  errcode : BitVec 4
  /-- STATUS.CMD_OVR (R27, R30). -/
  cmdOvr : Bool
  /-- STATUS.ACC_ERR (R27, R88). -/
  accErr : Bool
  /-- IRQ_EN[4:0] (R29). -/
  irqEn : BitVec 5
  /-- The pending command; STATUS.BUSY is whether there is one (R53). -/
  pending : Option Word
  /-- IBUF and OBUF (R84). -/
  mem : Memory
  /-- The decode latch; STATUS.LATCH_V is whether it is valid (R47). -/
  latch : Option Latch
  /-- The transmit-window and timer unit (R48, R49). -/
  tw : TxWindow
  /-- The reorder buffer (R50). -/
  rb : Reorder
  /-- The delivery queue, head first (R51). -/
  dlv : List DlvEntry
  /-- The event FIFO, head first (R52). -/
  evt : List Event
  /-- What the host port returned for the last read (R81); the model's own (log 9). -/
  rdata : Word
  /-- What happens next, head first; the model's own (log 1). -/
  trace : List Stimulus
  deriving DecidableEq, Repr

/-! ### Reset values (R343) -/

/-- The estimator at reset (10_state.md R40). -/
def Estimator.reset : Estimator where
  sa := BitVec.ofNat 32 (8 * Config.srttInit)
  sv := BitVec.ofNat 32 (4 * Config.rttvarInit)
  rto := BitVec.ofNat 32 (clampRto (Config.srttInit + 4 * Config.rttvarInit))

/-- TW at reset (R343): OFF, N = 1, nothing armed, TIMEOUT 1000. -/
def TxWindow.reset : TxWindow where
  cfg := { mode := .off, n := 1#8, maxRetries := 0#8, connLimit := false }
  timeout := 1000#24
  base := 0#32
  next := 0#32
  shared := { armed := false, rem := 0#24 }
  retry := 0#8
  ptag := 0#32
  abort := false
  stopped := false
  slots := List.replicate Config.timerSlots none
  est := Estimator.reset
  giveupCnt := 0#32
  retxCnt := 0#32

/-- RB at reset (R343): OFF, N = 1, RB_EXP = 0, every slot free. -/
def Reorder.reset : Reorder where
  mode := .off
  n := 1#8
  exp := 0#32
  slots := List.replicate Config.robSlots none

/-- The machine right after hardware reset (70_reset_and_hazards.md R340, R343). The buffers list nothing (log 3), the host port
has returned nothing yet (log 9) and no stimulus is laid up (log 2). -/
def State.reset : State where
  args := { arg0 := 0#32, arg1 := 0#32, arg2 := 0#32, arg3 := 0#32 }
  res := { r0 := 0#32, r1 := 0#32, r2 := 0#32, r3 := 0#32, r4 := 0#32, r5 := 0#32 }
  err := false
  errcode := 0#4
  cmdOvr := false
  accErr := false
  irqEn := 0#5
  pending := none
  mem := { powerOns := 0, cells := [] }
  latch := none
  tw := TxWindow.reset
  rb := Reorder.reset
  dlv := []
  evt := []
  rdata := 0#32
  trace := []

end Sys2Proof.Machine
end

