-- ==== Sys2Proof/Machine/Memory.lean ====
section
/-! DEFINITION. The two buffers: one list of written bytes by host address, in one canonical form (20_memory.md R83, R84, R86). -/

namespace Sys2Proof.Machine

/-- What an address reads as that the list does not hold: the free value of the last hardware reset (R84; log 3). -/
def Memory.unlisted (m : Memory) (a : Nat) : Byte := Config.powerOnByte m.powerOns a

/-- The byte listed at an address. -/
def cellAt : List Host.Cell → Nat → Option Byte
  | [], _ => none
  | c :: r, a => if c.1 = a then some c.2 else cellAt r a

/-- One byte of a buffer, by host address (R84). -/
def Memory.byteAt (m : Memory) (a : Nat) : Byte := (cellAt m.cells a).getD (m.unlisted a)

/-- The list without an address. -/
def eraseCell (a : Nat) (cells : List Host.Cell) : List Host.Cell := cells.filter fun c => c.1 != a

/-- The list with an address at a value, in rising order of addresses. -/
def insertCell (a : Nat) (v : Byte) : List Host.Cell → List Host.Cell
  | [] => [(a, v)]
  | c :: r => if a < c.1 then (a, v) :: c :: r else if c.1 = a then (a, v) :: r else c :: insertCell a v r

/-- One byte written: listed, unless it is what the address reads as unlisted. -/
def Memory.setByte (m : Memory) (a : Nat) (v : Byte) : Memory :=
  { m with cells := if v = m.unlisted a then eraseCell a m.cells else insertCell a v m.cells }

/-- Bytes written from an address on. -/
def Memory.setBytes (m : Memory) (a : Nat) : List Byte → Memory
  | [] => m
  | b :: r => (m.setByte a b).setBytes (a + 1) r

/-- The n bytes from an address on. -/
def Memory.bytes (m : Memory) (a n : Nat) : List Byte := (List.range n).map fun i => m.byteAt (a + i)

/-- Addresses strictly rise, and all lie above the bound if there is one. -/
def risingFrom : Option Nat → List Host.Cell → Bool
  | _, [] => true
  | lo, c :: r => (lo.all fun l => decide (l < c.1)) && risingFrom (some c.1) r

/-- The canonical form: addresses strictly rise and no entry equals what its address reads as unlisted. -/
def Memory.wf (m : Memory) : Bool :=
  risingFrom none m.cells && m.cells.all fun c => c.2 != m.unlisted c.1

/-! ### The two buffers in the address map (R84, R86) -/

/-- The host address of IBUF[0] (R84). -/
abbrev ibufBase : Nat := 0x400

/-- The host address of OBUF[0] (R84). -/
abbrev obufBase : Nat := 0x800

/-- IBUF[0 .. n) (R84). -/
def State.ibuf (s : State) (n : Nat) : List Byte := s.mem.bytes ibufBase n

/-- OBUF[0 .. len(bs)) written, the rest of OBUF unchanged (R84). -/
def State.putObuf (s : State) (bs : List Byte) : State := { s with mem := s.mem.setBytes obufBase bs }

/-- The buffers after a hardware reset: nothing listed, and a fresh free value (R84, R340; log 3). -/
def Memory.powerOn (m : Memory) : Memory := { powerOns := m.powerOns + 1, cells := [] }

end Sys2Proof.Machine
end

