-- ==== Sys2Proof/Machine/Operands.lean ====
section
/-! DEFINITION. How each command's operands are packed in ARG0-ARG3 and IBUF (30_encoding.md R106). ARG bits named here by no
accessor are ignored. -/

namespace Sys2Proof.Machine

/-- ENC_FRAME's type byte, ARG0[7:0] (R106). -/
def State.argType (s : State) : Byte := s.args.arg0.extractLsb' 0 8

/-- ENC_FRAME's and ENC_SEG's sequence, ARG1 (R106). -/
def State.argSeq (s : State) : Word := s.args.arg1

/-- ENC_SEG's srcPort, ARG0[15:0] (R106). -/
def State.argSrcPort (s : State) : Half := s.args.arg0.extractLsb' 0 16

/-- ENC_SEG's dstPort, ARG0[31:16] (R106). -/
def State.argDstPort (s : State) : Half := s.args.arg0.extractLsb' 16 16

/-- ENC_SEG's ack, ARG2 (R106). -/
def State.argAck (s : State) : Word := s.args.arg2

/-- ENC_SEG's flags, ARG3[7:0] (R106). -/
def State.argFlags (s : State) : Byte := s.args.arg3.extractLsb' 0 8

/-- ENC_SEG's window, ARG3[23:8] (R106). -/
def State.argWindow (s : State) : Half := s.args.arg3.extractLsb' 8 16

/-- RB_SETEXP's new expected sequence, TW_INIT's start sequence, TW_ACK's k and TW_ARM's tag: ARG0 (R106). -/
def State.argWord (s : State) : Word := s.args.arg0

/-- RTO_SAMPLE's sample in ticks, ARG0[23:0] (R106). -/
def State.argSample (s : State) : BitVec 24 := s.args.arg0.extractLsb' 0 24

end Sys2Proof.Machine
end

