-- ==== Sys2Proof/Machine/Ops.lean ====
section
/-! DEFINITION. The shared operations: how a command succeeds or fails (00_scope.md R10, 10_state.md R25), the initialisation of
TW and RB (R33, R43, R220), and the window and slot operations of TW (R54, R229-R231). -/

namespace Sys2Proof.Machine

/-! ### Success and failure -/

/-- The codes of ERRCODE (60_exceptions.md R300). -/
def ErrCode.bits : ErrCode → BitVec 4
  | .badOpc => 1#4
  | .rsvd => 2#4
  | .badLen => 3#4
  | .mode => 4#4
  | .wfull => 5#4
  | .nolatch => 6#4
  | .dlvRoom => 7#4
  | .empty => 8#4
  | .aborted => 9#4
  | .stopped => 10#4

/-- `raise Err(code)`: ERR and ERRCODE, and nothing else (00_scope.md R10, 60_exceptions.md R301). -/
def State.raise (s : State) (c : ErrCode) : State := { s with err := true, errcode := c.bits }

/-- A failed command's outcome: the machine goes on (R10). -/
def failed (c : ErrCode) (s : State) : Host.Outcome State Fault Refusal := .next (s.raise c)

/-- What every successful command does: all six RES, ERR <- 0 and ERRCODE <- 0 (10_state.md R25, R27). -/
def State.succeed (s : State) (r : Results) : State := { s with res := r, err := false, errcode := 0#4 }

/-- A successful command's outcome. -/
def done (r : Results) (s : State) : Host.Outcome State Fault Refusal := .next (s.succeed r)

/-- RES0 alone; RES1 to RES5 are written as 0 (R107). -/
def res1 (a : Word) : Results := { r0 := a, r1 := 0#32, r2 := 0#32, r3 := 0#32, r4 := 0#32, r5 := 0#32 }

/-- RES0 and RES1; the rest 0 (R107). -/
def res2 (a b : Word) : Results := { r0 := a, r1 := b, r2 := 0#32, r3 := 0#32, r4 := 0#32, r5 := 0#32 }

/-- RES0 to RES2; the rest 0 (R107). -/
def res3 (a b c : Word) : Results := { r0 := a, r1 := b, r2 := c, r3 := 0#32, r4 := 0#32, r5 := 0#32 }

/-- RES0 to RES3; the rest 0 (R107). -/
def res4 (a b c d : Word) : Results := { r0 := a, r1 := b, r2 := c, r3 := d, r4 := 0#32, r5 := 0#32 }

/-- All six RES written as 0 (R107). -/
def resZero : Results := res1 0#32

/-! ### TW: the timers and the window -/

/-- The shared timer disarmed, rem = 0 (10_state.md R48). -/
def SharedTimer.off : SharedTimer := { armed := false, rem := 0#24 }

/-- The shared timer armed with a count. -/
def SharedTimer.armedWith (c : BitVec 24) : SharedTimer := { armed := true, rem := c }

/-- `dist(base, next)`: the units in the window (42_txwindow_timers.md R222). -/
def TxWindow.outstanding (tw : TxWindow) : Word := dist tw.base tw.next

/-- Every slot freed. -/
def TxWindow.noSlots (tw : TxWindow) : List (Option TimerSlot) := tw.slots.map fun _ => none

/-- TW_INIT's effect on TW: the window at `start`, nothing armed, and the estimator at its reset values if asked (R220). -/
def TxWindow.init (start : Word) (estRst : Bool) (tw : TxWindow) : TxWindow :=
  { tw with
    base := start, next := start, shared := SharedTimer.off, slots := tw.noSlots,
    retry := 0#8, ptag := 0#32, abort := false, stopped := false,
    est := if estRst then Estimator.reset else tw.est }

/-- A write of TW_CFG: the fields, then a TW reset (10_state.md R32, R33). -/
def TxWindow.configure (cfg : TwCfg) (tw : TxWindow) : TxWindow :=
  ({ tw with cfg := cfg }).init 0#32 true

/-- A valid slot holds the sequence. -/
def TxWindow.hasSlot (tw : TxWindow) (k : Word) : Bool := tw.slots.any fun o => o.any fun t => t.seq == k

/-- The number of valid slots (R240, 10_state.md R38). -/
def TxWindow.liveSlots (tw : TxWindow) : Nat := tw.slots.countP Option.isSome

/-- `acked(s)`: in [base, next) with no valid slot (10_state.md R54). -/
def TxWindow.acked (tw : TxWindow) (s : Word) : Bool :=
  decide (dist tw.base s < tw.outstanding) && !tw.hasSlot s

/-- The window's sequences, as distances from base. -/
def TxWindow.window (tw : TxWindow) : List Nat := List.range tw.outstanding.toNat

/-- The sequence at a distance from base. -/
def TxWindow.seqAt (tw : TxWindow) (i : Nat) : Word := tw.base + BitVec.ofNat 32 i

/-- `slide()` with SR_SLIDE = SKIP: past the furthest acknowledged sequence of the window (R230). -/
def TxWindow.slideSkip (tw : TxWindow) : TxWindow :=
  match (tw.window.filter fun i => tw.acked (tw.seqAt i)).getLast? with
  | none => tw
  | some i => { tw with base := tw.seqAt (i + 1) }

/-- `slide()` with SR_SLIDE = CONTIGUOUS: through the contiguous acknowledged prefix (R231). -/
def TxWindow.slideContiguous (tw : TxWindow) : TxWindow :=
  { tw with base := tw.seqAt (tw.window.takeWhile fun i => tw.acked (tw.seqAt i)).length }

/-- `slide()` by the build's SR_SLIDE (R230, R231). -/
def TxWindow.slide (rule : Config.SrSlide) (tw : TxWindow) : TxWindow :=
  match rule with
  | .skip => tw.slideSkip
  | .contiguous => tw.slideContiguous

/-- `if k = base and base != next: slide()` (R229, R252). -/
def TxWindow.slideAt (rule : Config.SrSlide) (k : Word) (tw : TxWindow) : TxWindow :=
  if k = tw.base ∧ tw.base ≠ tw.next then tw.slide rule else tw

/-- The lowest index with no valid slot (R222, R224). -/
def firstFree {α : Type} : List (Option α) → Option Nat
  | [] => none
  | none :: _ => some 0
  | some _ :: r => (firstFree r).map (· + 1)

/-- The lowest-index valid slot of a sequence freed (R229). -/
def freeSeq (k : Word) : List (Option TimerSlot) → List (Option TimerSlot)
  | [] => []
  | none :: r => none :: freeSeq k r
  | some t :: r => if t.seq = k then none :: r else some t :: freeSeq k r

/-- An SR unit that `next` has left 2^31 or more behind (42_txwindow_timers.md R260). -/
def TxWindow.overSpan (tw : TxWindow) : Bool :=
  tw.slots.any fun o => o.any fun t => decide (2 ^ 31 ≤ (dist t.seq tw.next).toNat)

/-! ### RB -/

/-- A write of RB_CFG: the fields, then RB_EXP <- 0 and every slot freed (10_state.md R43). -/
def Reorder.configure (mode : Mode) (n : BitVec 8) (rb : Reorder) : Reorder :=
  { mode := mode, n := n, exp := 0#32, slots := rb.slots.map fun _ => none }

/-- Every slot freed and RB_EXP set (41_reorder.md R200). -/
def Reorder.setExp (e : Word) (rb : Reorder) : Reorder :=
  { rb with exp := e, slots := rb.slots.map fun _ => none }

/-- The number of valid RB slots (10_state.md R44). -/
def Reorder.occupied (rb : Reorder) : Nat := rb.slots.countP Option.isSome

/-- The lowest-index valid RB slot of a sequence (R186, R193). -/
def findSeq (k : Word) : List (Option RbSlot) → Option RbSlot
  | [] => none
  | none :: r => findSeq k r
  | some t :: r => if t.seq = k then some t else findSeq k r

/-- The RB slots without those a test picks. -/
def freeWhere (p : RbSlot → Bool) (slots : List (Option RbSlot)) : List (Option RbSlot) :=
  slots.map fun o => o.filter fun r => !p r

/-- The payload of the lowest-index valid RB slot of a sequence replaced (R193, R197). -/
def replacePayload (k : Word) (p : List Byte) : List (Option RbSlot) → List (Option RbSlot)
  | [] => []
  | none :: r => none :: replacePayload k p r
  | some t :: r => if t.seq = k then some { t with payload := p } :: r else some t :: replacePayload k p r

end Sys2Proof.Machine
end

