-- ==== Sys2Proof/Machine/Codec.lean ====
section
/-! DEFINITION. The frame codec: the wire formats (30_encoding.md R108, R110), the digest's coverage (40_codec.md R141, R142) and the
four codec commands (R146, R150, R154, R158). -/

namespace Sys2Proof.Machine

/-! ### Wire formats -/

/-- Bytes 0..4 of a frame: type and sequence (30_encoding.md R108). -/
def frameHead (t : Byte) (s : Word) : List Byte := t :: be32 s

/-- A frame: type, sequence, digest, payload (R108, 40_codec.md R147). -/
def frameBytes (t : Byte) (s d : Word) (p : List Byte) : List Byte := frameHead t s ++ be32 d ++ p

/-- What a frame's digest covers: bytes 0..4 and the payload (40_codec.md R141). -/
def frameCover (t : Byte) (s : Word) (p : List Byte) : List Byte := frameHead t s ++ p

/-- Bytes 0..16 of a segment: ports, seq, ack, flags, window, and the reserved field (30_encoding.md R110, R112). -/
def segHead (sp dp : Half) (s a : Word) (fl : Byte) (w rv : Half) : List Byte :=
  be16 sp ++ be16 dp ++ be32 s ++ be32 a ++ [fl] ++ be16 w ++ be16 rv

/-- The header length of a frame (R108). -/
abbrev frameHdr : Nat := 9

/-- The header length of a segment (R110). -/
abbrev segHdr : Nat := 21

/-- The two verdicts of a decode that is not SHORT, as RES0 reports them: 0 OK, 1 CORRUPT (40_codec.md R145). -/
def verdict (ok : Bool) : Word := if ok then 0#32 else 1#32

/-- The verdict SHORT (40_codec.md R145). -/
def verdictShort : Word := 2#32

/-- A decode of a datagram shorter than its header: the latch is invalid and RES0 = SHORT (R150, R158). -/
def decodeShort (s : State) : Host.Outcome State Fault Refusal := done (res1 verdictShort) { s with latch := none }

/-! ### Commands -/

/-- ENC_FRAME (R146). -/
def execEncFrame (len : Nat) (s : State) : Host.Outcome State Fault Refusal :=
  if 1015 < len then failed .badLen s
  else
    let p := s.ibuf len
    let d := digestFn (frameCover s.argType s.argSeq p)
    done (res2 (BitVec.ofNat 32 (frameHdr + len)) d) (s.putObuf (frameBytes s.argType s.argSeq d p))

/-- DEC_FRAME (R150). -/
def execDecFrame (len : Nat) (s : State) : Host.Outcome State Fault Refusal :=
  if 1024 < len then failed .badLen s
  else if len < frameHdr then decodeShort s
  else
    let b := s.ibuf len
    let t := byteOf b 0
    let sq := rdBe32 b 1
    let rdg := rdBe32 b 5
    let p := b.drop frameHdr
    let cdg := digestFn (b.take 5 ++ p)
    let ok := rdg == cdg
    done
      { r0 := verdict ok, r1 := t.setWidth 32, r2 := sq, r3 := BitVec.ofNat 32 (len - frameHdr), r4 := rdg, r5 := cdg }
      { s.putObuf p with
        latch := some { fmt := .frame, ok := ok, type := t, seq := sq, ack := 0#32, flags := 0#8, window := 0#16,
                        reserved := 0#16, payload := p } }

/-- ENC_SEG (R154); the reserved field is written 0 (30_encoding.md R112). -/
def execEncSeg (len : Nat) (s : State) : Host.Outcome State Fault Refusal :=
  if 1003 < len then failed .badLen s
  else
    let p := s.ibuf len
    let h17 := segHead s.argSrcPort s.argDstPort s.argSeq s.argAck s.argFlags s.argWindow 0#16
    let d := digestFn (h17 ++ p)
    done (res2 (BitVec.ofNat 32 (segHdr + len)) d) (s.putObuf (h17 ++ be32 d ++ p))

/-- DEC_SEG (R158); a nonzero reserved field is reported, not checked (30_encoding.md R112). -/
def execDecSeg (len : Nat) (s : State) : Host.Outcome State Fault Refusal :=
  if 1024 < len then failed .badLen s
  else if len < segHdr then decodeShort s
  else
    let b := s.ibuf len
    let sp := rdBe16 b 0
    let dp := rdBe16 b 2
    let sq := rdBe32 b 4
    let ak := rdBe32 b 8
    let fl := byteOf b 12
    let w := rdBe16 b 13
    let rv := rdBe16 b 15
    let rdg := rdBe32 b 17
    let p := b.drop segHdr
    let cdg := digestFn (b.take 17 ++ p)
    let ok := rdg == cdg
    done
      { r0 := verdict ok, r1 := dp ++ sp, r2 := sq, r3 := ak, r4 := (w ++ fl).setWidth 32,
        r5 := rv ++ BitVec.ofNat 16 (len - segHdr) }
      { s.putObuf p with
        latch := some { fmt := .seg, ok := ok, type := 0#8, seq := sq, ack := ak, flags := fl, window := w,
                        reserved := rv, payload := p } }

end Sys2Proof.Machine
end

