-- ==== Sys2Proof/Machine/Control.lean ====
section
/-! DEFINITION. The control commands NOP and CLR (43_control.md R280, R281). -/

namespace Sys2Proof.Machine

/-- NOP (R280): RES0-RES5 <- 0, ERR <- 0. -/
def execNop (s : State) : Host.Outcome State Fault Refusal := done resZero s

/-- The structures CLR clears, by its four selects (R281). -/
def State.clear (s : State) (latch dlv evt counters : Bool) : State :=
  { s with
    latch := if latch then none else s.latch,
    dlv := if dlv then [] else s.dlv,
    evt := if evt then [] else s.evt,
    tw := if counters then { s.tw with giveupCnt := 0#32, retxCnt := 0#32 } else s.tw }

/-- CLR (R281): drops the latch, flushes DLV, flushes EVT and zeroes the counters, each as selected. -/
def execClr (latch dlv evt counters : Bool) (s : State) : Host.Outcome State Fault Refusal :=
  done resZero (s.clear latch dlv evt counters)

end Sys2Proof.Machine
end

