-- ==== Sys2Proof/Machine/Reorder.lean ====
section
/-! DEFINITION. The reorder buffer and the delivery queue: RB_PUSH with its three mode rules, RB_SETEXP and DLV_POP
(41_reorder.md R180-R204). -/

namespace Sys2Proof.Machine

/-- The action codes of RB_PUSH (R181). -/
inductive Action where
  | delivered | buffered | duplicate | outOfWindow | corrupt | notData | oversize | noSlot | discarded
  deriving DecidableEq, Repr

/-- The code RES0 reports (R181). -/
def Action.bits : Action → Word
  | .delivered => 0#32
  | .buffered => 1#32
  | .duplicate => 2#32
  | .outOfWindow => 3#32
  | .corrupt => 4#32
  | .notData => 5#32
  | .oversize => 6#32
  | .noSlot => 7#32
  | .discarded => 8#32

/-- What a mode rule answers: the action, the ACK number if one is to be sent, what to deliver, and RB after the commit (R180). -/
structure Verdict where
  act : Action
  ack : Option Word
  deliver : List DlvEntry
  rb : Reorder
  deriving DecidableEq, Repr

/-- A classification that leaves RB alone and delivers nothing. -/
def Reorder.only (rb : Reorder) (act : Action) (ack : Option Word) : Verdict :=
  { act := act, ack := ack, deliver := [], rb := rb }

/-! ### GBN (R183) -/

/-- The GBN receive rule (R183); `isData` says the type is TYPE_DATA. DEDUCED: the checks come in R183's order, so an oversize frame out of
sequence is DISCARDED, though R199 drops every oversize payload with OVERSIZE (log 22). -/
def gbnRule (isData : Bool) (rb : Reorder) (l : Latch) : Verdict :=
  let e := rb.exp
  if !l.ok then rb.only .corrupt (some (e - 1#32))
  else if !isData then rb.only .notData none
  else if l.seq ≠ e then rb.only .discarded (some (e - 1#32))
  else if Config.maxPayload < l.payload.length then rb.only .oversize none
  else { act := .delivered, ack := some e, deliver := [{ seq := e, payload := l.payload }], rb := { rb with exp := e + 1#32 } }

/-! ### SR (R186) -/

/-- The buffered successors from x on, strictly contiguous, and the sequence after the last of them (R186, R187). Each is a
different slot, so as many rounds as there are slots reach the rule's own end (log 13). -/
def srDrain (slots : List (Option RbSlot)) : Nat → Word → List DlvEntry × Word
  | 0, x => ([], x)
  | n + 1, x =>
    match findSeq x slots with
    | none => ([], x)
    | some r =>
      let d := srDrain slots n (x + 1#32)
      ({ seq := x, payload := r.payload } :: d.1, d.2)

/-- The sequences of a list of entries. -/
def seqsOf (d : List DlvEntry) : List Word := d.map (·.seq)

/-- An arrival into the lowest-index free slot, or NO_SLOT (R186, R193). -/
def Reorder.buffer (rb : Reorder) (l : Latch) (ackBuffered ackNoSlot : Option Word) : Verdict :=
  match firstFree rb.slots with
  | some j =>
    { act := .buffered, ack := ackBuffered, deliver := [],
      rb := { rb with slots := rb.slots.set j (some { seq := l.seq, payload := l.payload }) } }
  | none => rb.only .noSlot ackNoSlot

/-- The SR receive rule (R186-R192). DEDUCED: the checks come in R186's order, so an oversize frame outside the window is DUPLICATE or
OUT_OF_WINDOW, though R199 drops every oversize payload with OVERSIZE (log 22). -/
def srRule (isData : Bool) (rb : Reorder) (l : Latch) : Verdict :=
  let e := rb.exp
  let s := l.seq
  if !l.ok then rb.only .corrupt none
  else if !isData then rb.only .notData none
  else if inwin s e rb.n.toNat then
    if Config.maxPayload < l.payload.length then rb.only .oversize none
    else if s = e then
      let d := srDrain rb.slots rb.slots.length (s + 1#32)
      { act := .delivered, ack := some s, deliver := { seq := s, payload := l.payload } :: d.1,
        rb := { rb with exp := d.2, slots := freeWhere (fun r => (seqsOf d.1).contains r.seq) rb.slots } }
    else if (findSeq s rb.slots).isSome then rb.only .duplicate (some s)
    else rb.buffer l (some s) none
  else if behind s e then rb.only .duplicate (some s)
  else rb.only .outOfWindow none

/-! ### CONN (R193) -/

/-- The sequence after a payload: sequences count bytes in CONN (R193). -/
def afterPayload (x : Word) (p : List Byte) : Word := x + BitVec.ofNat 32 p.length

/-- The buffered segments from byte x on, contiguous, and the byte after the last of them (R193; log 13). -/
def connDrain (slots : List (Option RbSlot)) : Nat → Word → List DlvEntry × Word
  | 0, x => ([], x)
  | n + 1, x =>
    match findSeq x slots with
    | none => ([], x)
    | some r =>
      let d := connDrain slots n (afterPayload x r.payload)
      ({ seq := x, payload := r.payload } :: d.1, d.2)

/-- The Connection receive rule (R193-R198); the integrity check comes before OVERSIZE here too (log 22). -/
def connRule (rb : Reorder) (l : Latch) : Verdict :=
  let e := rb.exp
  let s := l.seq
  if !l.ok then rb.only .corrupt none
  else if l.payload.isEmpty then rb.only .notData none
  else if Config.maxPayload < l.payload.length then rb.only .oversize none
  else if s = e then
    let d := connDrain rb.slots rb.slots.length (afterPayload s l.payload)
    { act := .delivered, ack := some d.2, deliver := { seq := s, payload := l.payload } :: d.1,
      rb := { rb with
        exp := d.2,
        slots := freeWhere (fun r => (seqsOf d.1).contains r.seq || behind r.seq d.2) rb.slots } }
  else if ahead s e then
    if (findSeq s rb.slots).isSome then
      { act := .buffered, ack := some e, deliver := [], rb := { rb with slots := replacePayload s l.payload rb.slots } }
    else rb.buffer l (some e) (some e)
  else rb.only .duplicate (some e)

/-! ### RB_PUSH (R180) -/

/-- The latch's format is the one the mode takes (R180). -/
def fmtFits (m : Mode) (f : Fmt) : Bool :=
  match m, f with
  | .gbn, .frame => true
  | .sr, .frame => true
  | .conn, .seg => true
  | _, _ => false

/-- The rule of the mode RB is in (R183, R186, R193); RB_PUSH has refused OFF before it (R180). -/
def modeRule (isData : Bool) (rb : Reorder) (l : Latch) : Verdict :=
  match rb.mode with
  | .gbn => gbnRule isData rb l
  | .sr => srRule isData rb l
  | .conn => connRule rb l
  | .off => rb.only .notData none

/-- RES0-RES5 of RB_PUSH (R180, R107). -/
def Verdict.results (v : Verdict) : Results where
  r0 := v.act.bits
  r1 := if v.ack.isSome then 1#32 else 0#32
  r2 := v.ack.getD 0#32
  r3 := BitVec.ofNat 32 v.deliver.length
  r4 := v.rb.exp
  r5 := 0#32

/-- All of D appended to DLV with the commit and the latch consumed, or DLV_ROOM and nothing (R180, R201). -/
def pushVerdict (v : Verdict) (s : State) : Host.Outcome State Fault Refusal :=
  if Config.dlvDepth < s.dlv.length + v.deliver.length then failed .dlvRoom s
  else done v.results { s with dlv := s.dlv ++ v.deliver, rb := v.rb, latch := none }

/-- RB_PUSH (R180): MODE (off), NOLATCH, MODE (format), then the mode's rule. DESIGN CHOICE: it runs on where a session has consumed 2^31
sequence numbers, which is outside the spec (R203; log 21). -/
def execRbPush (s : State) : Host.Outcome State Fault Refusal :=
  if s.rb.mode = .off then failed .mode s
  else
    match s.latch with
    | none => failed .nolatch s
    | some l =>
      if fmtFits s.rb.mode l.fmt then pushVerdict (modeRule (l.type == Config.typeData) s.rb l) s
      else failed .mode s

/-- RB_SETEXP (R200). -/
def execRbSetexp (s : State) : Host.Outcome State Fault Refusal :=
  if s.rb.mode = .off then failed .mode s
  else done (res1 (BitVec.ofNat 32 s.rb.occupied)) { s with rb := s.rb.setExp s.argWord }

/-- DLV_POP (R202). -/
def execDlvPop (s : State) : Host.Outcome State Fault Refusal :=
  match s.dlv with
  | [] => failed .empty s
  | e :: r =>
    done (res3 (BitVec.ofNat 32 e.payload.length) e.seq (BitVec.ofNat 32 r.length))
      ({ s with dlv := r }.putObuf e.payload)

end Sys2Proof.Machine
end

