-- ==== Sys2Proof/Machine/TxWindow.lean ====
section
/-! DEFINITION. The transmit-window and timer commands (42_txwindow_timers.md R220-R246). -/

namespace Sys2Proof.Machine

/-- TW_INIT (R220): legal in every mode. -/
def execTwInit (estRst : Bool) (s : State) : Host.Outcome State Fault Refusal :=
  done resZero { s with tw := s.tw.init s.argWord estRst }

/-! ### TW_ADMIT (R222-R225) -/

/-- The admission of `next` in GBN: the shared timer starts only if the window was empty (R222, R223). -/
def TxWindow.admitGbn (tw : TxWindow) : TxWindow :=
  { tw with
    shared := if tw.outstanding = 0#32 then SharedTimer.armedWith tw.timeout else tw.shared,
    next := tw.next + 1#32 }

/-- The admission of `next` in SR into slot j: a fresh timer of its own (R222, R224). -/
def TxWindow.admitSr (j : Nat) (tw : TxWindow) : TxWindow :=
  { tw with
    slots := tw.slots.set j (some { seq := tw.next, rem := tw.timeout, retries := 0#8 }),
    next := tw.next + 1#32 }

/-- RES0-RES2 of an admission: the sequence, the units outstanding after it, the slot index (R222). -/
def admitted (j : Nat) (tw : TxWindow) (s : State) : State :=
  ({ s with tw := tw }).succeed (res3 s.tw.next tw.outstanding (BitVec.ofNat 32 j))

/-- TW_ADMIT (R222): MODE, STOPPED, ABORTED, WFULL; then the next sequence and its timer. An SR admission that would leave an older
unit 2^31 behind is outside the spec (R260; log 7). -/
def execTwAdmit (s : State) : Host.Outcome State Fault Refusal :=
  if s.tw.cfg.mode ≠ .gbn ∧ s.tw.cfg.mode ≠ .sr then failed .mode s
  else if s.tw.stopped then failed .stopped s
  else if s.tw.abort then failed .aborted s
  else if s.tw.cfg.n.toNat ≤ s.tw.outstanding.toNat then failed .wfull s
  else if s.tw.cfg.mode = .gbn then .next (admitted 0 s.tw.admitGbn s)
  else
    match firstFree s.tw.slots with
    | none => failed .wfull s
    | some j =>
      if (s.tw.admitSr j).overSpan then .fault .liveSpan
      else .next (admitted j (s.tw.admitSr j) s)

/-! ### TW_ACK (R226-R235) -/

/-- `gbn_ack(k)`: a cumulative ACK inside the window; any other is ignored (R227, R228). The number released, and TW after. -/
def TxWindow.gbnAck (k : Word) (tw : TxWindow) : Word × TxWindow :=
  if dist tw.base k < tw.outstanding then
    (dist tw.base k + 1#32,
      { tw with
        base := k + 1#32, retry := 0#8,
        shared := if k + 1#32 = tw.next then SharedTimer.off else SharedTimer.armedWith tw.timeout })
  else (0#32, tw)

/-- `sr_ack(k)`: the unit k freed if it is live, and the slide if k is the base (R229). The number released, and TW after. -/
def TxWindow.srAck (rule : Config.SrSlide) (k : Word) (tw : TxWindow) : Word × TxWindow :=
  (if tw.hasSlot k then 1#32 else 0#32, ({ tw with slots := freeSeq k tw.slots }).slideAt rule k)

/-- RES0-RES3 of TW_ACK: released, base before, base after, outstanding after (R226). -/
def acknowledged (r : Word × TxWindow) (s : State) : Host.Outcome State Fault Refusal :=
  done (res4 r.1 s.tw.base r.2.base r.2.outstanding) { s with tw := r.2 }

/-- TW_ACK (R226): MODE, STOPPED, ABORTED; then the mode's rule. DEDUCED: it runs for every k, also one that R260 puts out of range
(log 8). -/
def execTwAck (s : State) : Host.Outcome State Fault Refusal :=
  if s.tw.cfg.mode ≠ .gbn ∧ s.tw.cfg.mode ≠ .sr then failed .mode s
  else if s.tw.stopped then failed .stopped s
  else if s.tw.abort then failed .aborted s
  else if s.tw.cfg.mode = .gbn then acknowledged (s.tw.gbnAck s.argWord) s
  else acknowledged (s.tw.srAck Config.srSlide s.argWord) s

/-! ### The pending-segment timer, stopping, and the estimator -/

/-- TW_ARM (R236): MODE, STOPPED; then the timer armed with the current RTO (R237). -/
def execTwArm (s : State) : Host.Outcome State Fault Refusal :=
  if s.tw.cfg.mode ≠ .conn then failed .mode s
  else if s.tw.stopped then failed .stopped s
  else
    done (res1 s.tw.est.rto)
      { s with tw := { s.tw with
          ptag := s.argWord, retry := 0#8, shared := SharedTimer.armedWith (s.tw.est.rto.setWidth 24) } }

/-- TW_CANCEL (R238): a disarmed timer is cancelled successfully too. -/
def execTwCancel (s : State) : Host.Outcome State Fault Refusal :=
  if s.tw.cfg.mode ≠ .conn then failed .mode s
  else
    done (res1 (BitVec.ofNat 32 (bitNat s.tw.shared.armed)))
      { s with tw := { s.tw with shared := SharedTimer.off } }

/-- TW_STOP (R240): every timer cancelled, stopped <- 1. -/
def execTwStop (s : State) : Host.Outcome State Fault Refusal :=
  done (res1 (BitVec.ofNat 32 (bitNat s.tw.shared.armed + s.tw.liveSlots)))
    { s with tw := { s.tw with shared := SharedTimer.off, slots := s.tw.noSlots, stopped := true } }

/-- The estimator after one RTT sample of r ticks (R243, R245), computed exactly and then narrowed. -/
def Estimator.sample (order : Config.RttvarOrder) (r : BitVec 24) (e : Estimator) : Estimator :=
  let m : Int := (r.toNat : Int) - ((e.sa.toNat >>> 3 : Nat) : Int)
  let sa' : Int := (e.sa.toNat : Int) + m
  let err : Nat :=
    match order with
    | .old => m.natAbs
    | .new => ((r.toNat : Int) - ((sa'.toNat >>> 3 : Nat) : Int)).natAbs
  let sv' : Int := (e.sv.toNat : Int) + (err : Int) - ((e.sv.toNat >>> 2 : Nat) : Int)
  let sa := BitVec.ofInt 32 sa'
  let sv := BitVec.ofInt 32 sv'
  { sa := sa, sv := sv, rto := BitVec.ofNat 32 (clampRto ((sa.toNat >>> 3) + sv.toNat)) }

/-- RTO_SAMPLE (R243): legal in every mode and state; a running timer keeps its count (R237). -/
def execRtoSample (s : State) : Host.Outcome State Fault Refusal :=
  let e := s.tw.est.sample Config.rttvarOrder s.argSample
  done (res3 e.rto e.sa e.sv) { s with tw := { s.tw with est := e } }

end Sys2Proof.Machine
end

