-- ==== Sys2Proof/Machine/Dispatch.lean ====
section
/-! DEFINITION. One arm per command: the meaning of each (30_encoding.md R103). -/

namespace Sys2Proof.Machine

def exec (i : Instr) (s : State) : Host.Outcome State Fault Refusal :=
  match i with
  | .nop => Sys2Proof.Machine.execNop s
  | .clr l d e c => Sys2Proof.Machine.execClr l d e c s
  | .encFrame len => Sys2Proof.Machine.execEncFrame len s
  | .decFrame len => Sys2Proof.Machine.execDecFrame len s
  | .encSeg len => Sys2Proof.Machine.execEncSeg len s
  | .decSeg len => Sys2Proof.Machine.execDecSeg len s
  | .rbPush => Sys2Proof.Machine.execRbPush s
  | .rbSetexp => Sys2Proof.Machine.execRbSetexp s
  | .dlvPop => Sys2Proof.Machine.execDlvPop s
  | .twInit r => Sys2Proof.Machine.execTwInit r s
  | .twAdmit => Sys2Proof.Machine.execTwAdmit s
  | .twAck => Sys2Proof.Machine.execTwAck s
  | .twArm => Sys2Proof.Machine.execTwArm s
  | .twCancel => Sys2Proof.Machine.execTwCancel s
  | .twStop => Sys2Proof.Machine.execTwStop s
  | .rtoSample => Sys2Proof.Machine.execRtoSample s

end Sys2Proof.Machine
end

