-- ==== Sys2Proof/Machine/Arbiter.lean ====
section
/-! DEFINITION. Timer expiry service, the oldest-first arbiter and the tick step (42_txwindow_timers.md R250-R258). -/

namespace Sys2Proof.Machine

/-! ### Service of one expired timer: the unit after it and the one event it emits -/

/-- Service of SR slot j holding t: a retransmission, or a give-up at the ceiling (R252, R257). -/
def TxWindow.serveSlot (giveupSlides : Bool) (rule : Config.SrSlide) (j : Nat) (t : TimerSlot) (tw : TxWindow) :
    TxWindow × Event :=
  if tw.cfg.maxRetries.toNat ≤ t.retries.toNat then
    let freed := { tw with slots := tw.slots.set j none, giveupCnt := tw.giveupCnt + 1#32 }
    (if giveupSlides then freed.slideAt rule t.seq else freed, { kind := .giveup, seq := t.seq, count := 1#16 })
  else
    ({ tw with
        slots := tw.slots.set j (some { t with retries := t.retries + 1#8, rem := tw.timeout }),
        retxCnt := tw.retxCnt + 1#32 },
      { kind := .retx, seq := t.seq, count := 1#16 })

/-- Service of the shared timer in GBN: a round of retransmissions, or the abort at the ceiling (R253, R254). -/
def TxWindow.serveGbn (tw : TxWindow) : TxWindow × Event :=
  if tw.cfg.maxRetries.toNat ≤ tw.retry.toNat then
    ({ tw with abort := true, shared := SharedTimer.off },
      { kind := .abort, seq := tw.base, count := tw.outstanding.setWidth 16 })
  else
    ({ tw with
        retry := tw.retry + 1#8, shared := { tw.shared with rem := tw.timeout }, retxCnt := tw.retxCnt + tw.outstanding },
      { kind := .retxRange, seq := tw.base, count := tw.outstanding.setWidth 16 })

/-- Service of the pending-segment timer in CONN: a retransmission, or exhaustion when CONN_LIMIT bounds it (R256). -/
def TxWindow.serveConn (tw : TxWindow) : TxWindow × Event :=
  if tw.cfg.connLimit = true ∧ tw.cfg.maxRetries.toNat ≤ tw.retry.toNat then
    ({ tw with shared := SharedTimer.off }, { kind := .pexhaust, seq := tw.ptag, count := 1#16 })
  else
    ({ tw with
        retry := satInc tw.retry, shared := { tw.shared with rem := tw.est.rto.setWidth 24 }, retxCnt := tw.retxCnt + 1#32 },
      { kind := .retx, seq := tw.ptag, count := 1#16 })

/-! ### The arbiter (R251) -/

/-- The shared timer is armed and has run out (R251, 10_state.md R38). -/
def SharedTimer.expired (t : SharedTimer) : Bool := t.armed && t.rem == 0#24

/-- The older of two expired slots, the first where they are equally old (R251). -/
def olderOf (next : Word) (a b : Nat × TimerSlot) : Nat × TimerSlot :=
  if dist a.2.seq next < dist b.2.seq next then b else a

/-- The expired slot with the largest dist(seq, next), with its index; the list starts at index j (R251). -/
def oldestExpired (next : Word) : Nat → List (Option TimerSlot) → Option (Nat × TimerSlot)
  | _, [] => none
  | j, none :: r => oldestExpired next (j + 1) r
  | j, some t :: r =>
    if t.rem = 0#24 then
      match oldestExpired next (j + 1) r with
      | none => some (j, t)
      | some best => some (olderOf next (j, t) best)
    else oldestExpired next (j + 1) r

/-- The service of the oldest expired timer of the unit's mode, if one is expired (R251). -/
def TxWindow.serveOldest (giveupSlides : Bool) (rule : Config.SrSlide) (tw : TxWindow) : Option (TxWindow × Event) :=
  match tw.cfg.mode with
  | .off => none
  | .gbn => if tw.shared.expired then some tw.serveGbn else none
  | .conn => if tw.shared.expired then some tw.serveConn else none
  | .sr => (oldestExpired tw.next 0 tw.slots).map fun x => tw.serveSlot giveupSlides rule x.1 x.2

/-- The arbiter's loop. Each round emits one event, so EVT_DEPTH rounds reach the rule's own end: the FIFO is full or nothing is
expired (R251; log 13). -/
def arbitrateLoop (giveupSlides : Bool) (rule : Config.SrSlide) : Nat → TxWindow → List Event → TxWindow × List Event
  | 0, tw, evt => (tw, evt)
  | n + 1, tw, evt =>
    if Config.evtDepth ≤ evt.length then (tw, evt)
    else
      match tw.serveOldest giveupSlides rule with
      | none => (tw, evt)
      | some r => arbitrateLoop giveupSlides rule n r.1 (evt ++ [r.2])

/-- `Arbitrate()`, with the build's GIVEUP_SLIDES and SR_SLIDE (R251). -/
def State.arbitrate (s : State) : State :=
  let r := arbitrateLoop Config.giveupSlides Config.srSlide Config.evtDepth s.tw s.evt
  { s with tw := r.1, evt := r.2 }

/-! ### The tick (R250) -/

/-- A count one tick later. -/
def countDown (r : BitVec 24) : BitVec 24 := if r = 0#24 then 0#24 else r - 1#24

/-- Every armed timer with a count left counts down (R250). -/
def TxWindow.tick (tw : TxWindow) : TxWindow :=
  { tw with
    shared := if tw.shared.armed then { tw.shared with rem := countDown tw.shared.rem } else tw.shared,
    slots := tw.slots.map fun o => o.map fun t => { t with rem := countDown t.rem } }

/-- The tick step: count down, then arbitrate (R250). -/
def State.tick (s : State) : State := ({ s with tw := s.tw.tick }).arbitrate

end Sys2Proof.Machine
end

