-- ==== Sys2Proof/Machine/Flags.lean ====
section
/-! DEFINITION. Every status bit and derived register: STATUS (10_state.md R27), the irq output (60_exceptions.md R310), and the
registers of TW, RB, DLV and EVT that are computed and not stored (R37, R38, R44-R46). -/

namespace Sys2Proof.Machine

/-! ### STATUS (R27) -/

/-- STATUS.BUSY: a command is in flight (R27, R53). -/
def State.busy (s : State) : Bool := s.pending.isSome

/-- STATUS.EVT_NE (R27). -/
def State.evtNe (s : State) : Bool := !s.evt.isEmpty

/-- STATUS.DLV_NE (R27). -/
def State.dlvNe (s : State) : Bool := !s.dlv.isEmpty

/-- STATUS.LATCH_V: the decode latch is valid (R27, R47). -/
def State.latchV (s : State) : Bool := s.latch.isSome

/-- STATUS.EVT_FULL: the event FIFO holds EVT_DEPTH entries (R27). -/
def State.evtFull (s : State) : Bool := s.evt.length == Config.evtDepth

/-- STATUS.DLV_FULL: the delivery queue holds DLV_DEPTH entries (R27). -/
def State.dlvFull (s : State) : Bool := s.dlv.length == Config.dlvDepth

/-- A bit at a place of a register. -/
def bitAt (b : Bool) (i : Nat) : Word := BitVec.ofNat 32 (bitNat b) <<< i

/-- STATUS as the host reads it (R27). -/
def State.status (s : State) : Word :=
  bitAt s.busy 0 ||| bitAt s.err 1 ||| (s.errcode.setWidth 32 <<< 4) ||| bitAt s.tw.abort 8 ||| bitAt s.evtNe 9 |||
    bitAt s.dlvNe 10 ||| bitAt s.latchV 11 ||| bitAt s.tw.stopped 12 ||| bitAt s.cmdOvr 13 ||| bitAt s.evtFull 14 |||
    bitAt s.dlvFull 15 ||| bitAt s.accErr 16

/-- The irq output: high exactly while an enabled source condition holds (60_exceptions.md R310). -/
def State.irq (s : State) : Bool :=
  (s.irqEn.getLsbD 0 && s.evtNe) || (s.irqEn.getLsbD 1 && s.dlvNe) || (s.irqEn.getLsbD 2 && s.tw.abort) ||
    (s.irqEn.getLsbD 3 && s.err) || (s.irqEn.getLsbD 4 && (s.cmdOvr || s.accErr))

/-! ### TW -/

/-- The code of MODE (R31, R42). -/
def Mode.bits : Mode → BitVec 2
  | .off => 0#2
  | .gbn => 1#2
  | .sr => 2#2
  | .conn => 3#2

/-- The mode of a code (R31, R42). -/
def Mode.ofBits (b : BitVec 2) : Mode :=
  if b = 1#2 then .gbn else if b = 2#2 then .sr else if b = 3#2 then .conn else .off

/-- TW_CFG as the host reads it (R31). -/
def TwCfg.word (c : TwCfg) : Word :=
  c.mode.bits.setWidth 32 ||| (c.n.setWidth 32 <<< 8) ||| (c.maxRetries.setWidth 32 <<< 16) ||| bitAt c.connLimit 24

/-- The fields a written TW_CFG word stores (R31, R32). -/
def TwCfg.ofWord (w : Word) : TwCfg where
  mode := Mode.ofBits (w.extractLsb' 0 2)
  n := warlN (w.extractLsb' 8 8)
  maxRetries := w.extractLsb' 16 8
  connLimit := w.getLsbD 24

/-- TW_ACKMAP (R37, R54). -/
def TxWindow.ackMap (tw : TxWindow) : Word :=
  match tw.cfg.mode with
  | .sr => bitmap fun i => decide (i < tw.outstanding.toNat) && tw.acked (tw.seqAt i)
  | _ => 0#32

/-- The number of valid slots with no count left (R38). -/
def TxWindow.expiredSlots (tw : TxWindow) : Nat := tw.slots.countP fun o => o.any fun t => t.rem == 0#24

/-- TW_TSTAT (R38). -/
def TxWindow.tstat (tw : TxWindow) : Word :=
  bitAt tw.shared.armed 0 ||| bitAt tw.shared.expired 1 ||| ((BitVec.ofNat 8 tw.liveSlots).setWidth 32 <<< 8) |||
    ((BitVec.ofNat 8 tw.expiredSlots).setWidth 32 <<< 16)

/-- TW_SREM: the shared timer's count, 0 when it is disarmed (R39). -/
def TxWindow.srem (tw : TxWindow) : Word := if tw.shared.armed then tw.shared.rem.setWidth 32 else 0#32

/-! ### RB, DLV and EVT -/

/-- RB_CFG as the host reads it (R42). -/
def Reorder.cfgWord (rb : Reorder) : Word := rb.mode.bits.setWidth 32 ||| (rb.n.setWidth 32 <<< 8)

/-- RB_MAP (R44). -/
def Reorder.map (rb : Reorder) : Word :=
  match rb.mode with
  | .sr => bitmap fun i => (findSeq (rb.exp + BitVec.ofNat 32 i) rb.slots).isSome
  | _ => 0#32

/-- The payload length of DLV's head, or 0 (R45). -/
def State.dlvHlen (s : State) : Word :=
  match s.dlv with
  | [] => 0#32
  | e :: _ => (BitVec.ofNat 16 e.payload.length).setWidth 32

/-- The sequence of DLV's head, or 0 (R45). -/
def State.dlvHseq (s : State) : Word :=
  match s.dlv with
  | [] => 0#32
  | e :: _ => e.seq

/-- The code of an event type (R52). -/
def EventKind.bits : EventKind → BitVec 4
  | .retx => 1#4
  | .retxRange => 2#4
  | .giveup => 3#4
  | .abort => 4#4
  | .pexhaust => 5#4

/-- EVT_HEAD: the head's type and count, or 0 (R46). -/
def State.evtHead (s : State) : Word :=
  match s.evt with
  | [] => 0#32
  | e :: _ => e.kind.bits.setWidth 32 ||| (e.count.setWidth 32 <<< 16)

/-- EVT_SEQ: the head's sequence or tag, or 0 (R46). -/
def State.evtSeq (s : State) : Word :=
  match s.evt with
  | [] => 0#32
  | e :: _ => e.seq

/-- A count register of 8 bits (R44-R46). -/
def count8 (n : Nat) : Word := (BitVec.ofNat 8 n).setWidth 32

end Sys2Proof.Machine
end

