-- ==== Sys2Proof/Machine/HostPort.lean ====
section
/-! DEFINITION. The host port: the register map (10_state.md), the address map and the refused accesses (20_memory.md R81-R89),
the register-side operations (43_control.md R282), the soft reset (70_reset_and_hazards.md R341) and the hardware reset (R340). -/

namespace Sys2Proof.Machine

/-! ### Reset -/

/-- Every piece of state at its reset value, but for the buffers given; what the host has read and what comes next are no state
of the block (R340, R341). -/
def State.resetKeeping (s : State) (m : Memory) : State :=
  { State.reset with mem := m, rdata := s.rdata, trace := s.trace }

/-- Soft reset: IBUF and OBUF keep their contents, a pending command is abandoned (R341). -/
def State.softReset (s : State) : State := s.resetKeeping s.mem

/-- Hardware reset: the buffers too are at their unspecified reset contents (R340, R343; log 11). -/
def State.hwReset (s : State) : State := s.resetKeeping s.mem.powerOn

/-! ### The register map (10_state.md) -/

/-- The registers of the map, by name. -/
inductive Reg where
  | id | param0 | param1 | param2 | ctrl | status | irqEn | cmd
  | arg0 | arg1 | arg2 | arg3
  | res0 | res1 | res2 | res3 | res4 | res5
  | twCfg | twTimeout | twBase | twNext | twRetry | twAckmap | twTstat | twPtag | rto | srtt8 | rttvar4
  | giveupCnt | retxCnt | twSrem
  | rbCfg | rbExp | rbOcc | rbMap
  | dlvCount | dlvHlen | dlvHseq
  | evtHead | evtSeq | evtPop | evtCount
  deriving DecidableEq, Repr

/-- The register at an offset of 0x000-0x3FF; every other offset is reserved (10_state.md register map). -/
def regAt (a : Nat) : Option Reg :=
  match a with
  | 0x000 => some .id
  | 0x004 => some .param0
  | 0x008 => some .param1
  | 0x00C => some .param2
  | 0x010 => some .ctrl
  | 0x014 => some .status
  | 0x018 => some .irqEn
  | 0x01C => some .cmd
  | 0x020 => some .arg0
  | 0x024 => some .arg1
  | 0x028 => some .arg2
  | 0x02C => some .arg3
  | 0x030 => some .res0
  | 0x034 => some .res1
  | 0x038 => some .res2
  | 0x03C => some .res3
  | 0x040 => some .res4
  | 0x044 => some .res5
  | 0x050 => some .twCfg
  | 0x054 => some .twTimeout
  | 0x058 => some .twBase
  | 0x05C => some .twNext
  | 0x060 => some .twRetry
  | 0x064 => some .twAckmap
  | 0x068 => some .twTstat
  | 0x06C => some .twPtag
  | 0x070 => some .rto
  | 0x074 => some .srtt8
  | 0x078 => some .rttvar4
  | 0x07C => some .giveupCnt
  | 0x080 => some .retxCnt
  | 0x084 => some .twSrem
  | 0x090 => some .rbCfg
  | 0x094 => some .rbExp
  | 0x098 => some .rbOcc
  | 0x09C => some .rbMap
  | 0x0A0 => some .dlvCount
  | 0x0A4 => some .dlvHlen
  | 0x0A8 => some .dlvHseq
  | 0x0B0 => some .evtHead
  | 0x0B4 => some .evtSeq
  | 0x0B8 => some .evtPop
  | 0x0BC => some .evtCount
  | _ => none

/-- PARAM0 (R22). -/
def param0Word : Word :=
  BitVec.ofNat 32 (Config.winMax + Config.timerSlots * 2 ^ 8 + Config.robSlots * 2 ^ 16)

/-- PARAM1 (R22). -/
def param1Word : Word :=
  BitVec.ofNat 32 (Config.maxPayload + Config.dlvDepth * 2 ^ 16 + Config.evtDepth * 2 ^ 24)

/-- PARAM2 (R22). -/
def param2Word : Word := BitVec.ofNat 32 (Config.rtoMin + Config.rtoMax * 2 ^ 16)

/-- What a register reads as (10_state.md R21-R46). No read has a side effect (20_memory.md R89). -/
def State.readReg (s : State) : Reg → Word
  | .id => 0x45464332#32
  | .param0 => param0Word
  | .param1 => param1Word
  | .param2 => param2Word
  | .ctrl => 0#32
  | .status => s.status
  | .irqEn => s.irqEn.setWidth 32
  | .cmd => 0#32
  | .arg0 => s.args.arg0
  | .arg1 => s.args.arg1
  | .arg2 => s.args.arg2
  | .arg3 => s.args.arg3
  | .res0 => s.res.r0
  | .res1 => s.res.r1
  | .res2 => s.res.r2
  | .res3 => s.res.r3
  | .res4 => s.res.r4
  | .res5 => s.res.r5
  | .twCfg => s.tw.cfg.word
  | .twTimeout => s.tw.timeout.setWidth 32
  | .twBase => s.tw.base
  | .twNext => s.tw.next
  | .twRetry => s.tw.retry.setWidth 32
  | .twAckmap => s.tw.ackMap
  | .twTstat => s.tw.tstat
  | .twPtag => s.tw.ptag
  | .rto => s.tw.est.rto
  | .srtt8 => s.tw.est.sa
  | .rttvar4 => s.tw.est.sv
  | .giveupCnt => s.tw.giveupCnt
  | .retxCnt => s.tw.retxCnt
  | .twSrem => s.tw.srem
  | .rbCfg => s.rb.cfgWord
  | .rbExp => s.rb.exp
  | .rbOcc => count8 s.rb.occupied
  | .rbMap => s.rb.map
  | .dlvCount => count8 s.dlv.length
  | .dlvHlen => s.dlvHlen
  | .dlvHseq => s.dlvHseq
  | .evtHead => s.evtHead
  | .evtSeq => s.evtSeq
  | .evtPop => 0#32
  | .evtCount => count8 s.evt.length

/-! ### Register writes (43_control.md R282) -/

/-- A refused access: STATUS.ACC_ERR <- 1 and nothing else (20_memory.md R88, 70_reset_and_hazards.md R352). -/
def State.refuse (s : State) : State := { s with accErr := true }

/-- A write that is refused while a command is pending (R352). -/
def State.unlessBusy (s : State) (t : State) : State := if s.busy then s.refuse else t

/-- A write of CMD: the word becomes the pending command, or is dropped with CMD_OVR (10_state.md R30). -/
def State.writeCmd (s : State) (w : Word) : State :=
  if s.busy then { s with cmdOvr := true } else { s with pending := some w }

/-- A write of STATUS: bit 13 clears CMD_OVR, bit 16 clears ACC_ERR (10_state.md R28). -/
def State.writeStatus (s : State) (w : Word) : State :=
  { s with cmdOvr := s.cmdOvr && !w.getLsbD 13, accErr := s.accErr && !w.getLsbD 16 }

/-- A write of EVT_POP: the head leaves, then the arbiter runs; nothing when the FIFO is empty (10_state.md R46; log 14). -/
def State.popEvent (s : State) : State :=
  match s.evt with
  | [] => s
  | _ :: r => ({ s with evt := r }).arbitrate

/-- A 32-bit write of a register. Read-only registers ignore it (20_memory.md R87). -/
def State.writeReg (s : State) (w : Word) : Reg → State
  | .ctrl => if w.getLsbD 0 then s.softReset else s
  | .status => s.writeStatus w
  | .irqEn => { s with irqEn := w.extractLsb' 0 5 }
  | .cmd => s.writeCmd w
  | .arg0 => s.unlessBusy { s with args := { s.args with arg0 := w } }
  | .arg1 => s.unlessBusy { s with args := { s.args with arg1 := w } }
  | .arg2 => s.unlessBusy { s with args := { s.args with arg2 := w } }
  | .arg3 => s.unlessBusy { s with args := { s.args with arg3 := w } }
  | .twCfg => s.unlessBusy { s with tw := s.tw.configure (TwCfg.ofWord w) }
  | .twTimeout => s.unlessBusy { s with tw := { s.tw with timeout := warlTimeout (w.extractLsb' 0 24) } }
  | .rbCfg => s.unlessBusy { s with rb := s.rb.configure (Mode.ofBits (w.extractLsb' 0 2)) (warlN (w.extractLsb' 8 8)) }
  | .evtPop => s.popEvent
  | .id | .param0 | .param1 | .param2 | .res0 | .res1 | .res2 | .res3 | .res4 | .res5
  | .twBase | .twNext | .twRetry | .twAckmap | .twTstat | .twPtag | .rto | .srtt8 | .rttvar4 | .giveupCnt | .retxCnt | .twSrem
  | .rbExp | .rbOcc | .rbMap | .dlvCount | .dlvHlen | .dlvHseq | .evtHead | .evtSeq | .evtCount => s

/-! ### Accesses (20_memory.md R81-R88) -/

/-- The regions of the address map (R86). -/
inductive Region where
  | regs | ibuf | obuf | reserved
  deriving DecidableEq, Repr

/-- The region of a host address (R86). -/
def regionOf (a : Nat) : Region :=
  if a < 0x400 then .regs else if a < 0x800 then .ibuf else if a < 0xC00 then .obuf else .reserved

/-- The word a 32-bit access reads from the buffers, by its little-endian lanes (R83). -/
def Memory.wordAt (m : Memory) (a : Nat) : Word :=
  fromLanes (m.byteAt a) (m.byteAt (a + 1)) (m.byteAt (a + 2)) (m.byteAt (a + 3))

/-- What a read returns, or none where the access is refused (R81, R83, R87, R88). -/
def State.readData (s : State) (size : AccessSize) (a : Nat) : Option Word :=
  match size with
  | .byte =>
    match regionOf a with
    | .regs => none
    | .ibuf | .obuf => some ((s.mem.byteAt a).setWidth 32)
    | .reserved => some 0#32
  | .word =>
    if a % 4 = 0 then
      match regionOf a with
      | .regs => some (((regAt a).map s.readReg).getD 0#32)
      | .ibuf | .obuf => some (s.mem.wordAt a)
      | .reserved => some 0#32
    else none

/-- A host read: a refused one returns 0 and sets ACC_ERR (R88). -/
def State.hostRead (s : State) (size : AccessSize) (a : Nat) : State :=
  match s.readData size a with
  | some v => { s with rdata := v }
  | none => { s.refuse with rdata := 0#32 }

/-- Bytes written to IBUF, unless a command is pending (R84, R352). -/
def State.writeIbuf (s : State) (a : Nat) (bs : List Byte) : State :=
  s.unlessBusy { s with mem := s.mem.setBytes a bs }

/-- A host write (R81-R88). -/
def State.hostWrite (s : State) (size : AccessSize) (a : Nat) (w : Word) : State :=
  match size with
  | .byte =>
    match regionOf a with
    | .regs | .obuf => s.refuse
    | .ibuf => s.writeIbuf a [w.extractLsb' 0 8]
    | .reserved => s
  | .word =>
    if a % 4 = 0 then
      match regionOf a with
      | .regs => ((regAt a).map (s.writeReg w)).getD s
      | .ibuf => s.writeIbuf a (lanes w)
      | .obuf => s.refuse
      | .reserved => s
    else s.refuse

end Sys2Proof.Machine
end

