-- ==== Sys2Proof/Machine/Engine.lean ====
section
/-! DEFINITION. The agents' steps: the command engine's completion (10_state.md R53, 30_encoding.md R102) and what each stimulus
does (20_memory.md R91). -/

namespace Sys2Proof.Machine

/-- The error a word that is no command raises (30_encoding.md R102). -/
def errOfDecode : DecodeError → ErrCode
  | .badOpc => .badOpc
  | .rsvd => .rsvd

/-- What a completed command leaves, with the arbiter run after it (10_state.md R53). -/
def thenArbitrate : Host.Outcome State Fault Refusal → Host.Outcome State Fault Refusal
  | .next s => .next s.arbitrate
  | .fault r => .fault r
  | .refused r => .refused r

/-- The command whose word is w runs: decode, then its rule, or an error (R102). -/
def runWord (w : Word) (s : State) : Host.Outcome State Fault Refusal :=
  match decode w with
  | .ok i => exec i s
  | .error e => failed (errOfDecode e) s

/-- The command engine's turn: the pending command completes, the pending command is emptied (BUSY <- 0) and the arbiter runs; with no
command pending nothing happens (R53). -/
def complete (s : State) : Host.Outcome State Fault Refusal :=
  match s.pending with
  | none => .next s
  | some w => thenArbitrate (runWord w { s with pending := none })

/-- What a stimulus does (R91). -/
def stimulate (x : Stimulus) (s : State) : Host.Outcome State Fault Refusal :=
  match x with
  | .read size a => .next (s.hostRead size a.toNat)
  | .write size a w => .next (s.hostWrite size a.toNat w)
  | .tick => .next s.tick
  | .engine => complete s
  | .hwReset => .next s.hwReset

end Sys2Proof.Machine
end

