-- ==== Sys2Proof/Machine/Step.lean ====
section
/-! DEFINITION. One step: the next stimulus of the trace (20_memory.md R91). -/

namespace Sys2Proof.Machine

/-- One step of the block. With stimuli laid up, the first of them happens. With none, it is the command engine's turn: a command
completes after finitely many steps (10_state.md R53), and an idle block stays as it is (log 2). -/
def step (s : State) : Host.Outcome State Fault Refusal :=
  match s.trace with
  | [] => complete s
  | x :: rest => stimulate x { s with trace := rest }

/-- The command word w as the pending command, with the command engine's turn next, so that the next step completes exactly it
(10_state.md R30, R53; log 2). A command word is one 32-bit register (30_encoding.md R100). -/
def State.withFetchWord (s : State) (nbits w : Nat) : State :=
  { s with pending := some (BitVec.ofNat 32 (w % 2 ^ nbits)), trace := .engine :: s.trace }

end Sys2Proof.Machine
end

