-- ==== Sys2Proof/Safety.lean ====
section
/-! DEFINITION. What a safe run keeps: the invariants of TW (10_state.md R55, 42_txwindow_timers.md R241, R244, R255, R259), of RB (10_state.md
R56), of the queues (R51, R52), of the buffers (20_memory.md R84) and of STATUS (60_exceptions.md R300), in the terms the statements use. -/

namespace Sys2Proof.Machine

/-! ### TW -/

/-- The valid slots of the pool, in index order (10_state.md R49). -/
def TxWindow.units (tw : TxWindow) : List TimerSlot := tw.slots.reduceOption

/-- TW runs a window: GBN or SR (42_txwindow_timers.md R221). -/
def TxWindow.windowed (tw : TxWindow) : Prop := tw.cfg.mode = .gbn ∨ tw.cfg.mode = .sr

/-- The invariant of TW. -/
structure TwInv (tw : TxWindow) : Prop where
  /-- The pool has TIMER_SLOTS slots (10_state.md R48). -/
  slotCount : tw.slots.length = Config.timerSlots
  /-- N is legal (10_state.md R32). -/
  nLegal : 1 ≤ tw.cfg.n.toNat ∧ tw.cfg.n.toNat ≤ Config.winMax
  /-- TIMEOUT is at least 1 (10_state.md R34). -/
  timeoutPos : tw.timeout ≠ 0#24
  /-- In GBN and SR, dist(base, next) <= N (10_state.md R55 1). -/
  windowBound : tw.windowed → tw.outstanding.toNat ≤ tw.cfg.n.toNat
  /-- In GBN the shared timer is armed exactly when the window is not empty, not aborted and not stopped (10_state.md R55 2). -/
  gbnTimer : tw.cfg.mode = .gbn → (tw.shared.armed = true ↔ tw.base ≠ tw.next ∧ tw.abort = false ∧ tw.stopped = false)
  /-- The shared timer belongs to GBN and CONN: disarmed in OFF and SR (10_state.md R48, R55 4). -/
  sharedUse : tw.cfg.mode = .off ∨ tw.cfg.mode = .sr → tw.shared.armed = false
  /-- Only SR has slots (10_state.md R49, R55 4). -/
  slotUse : tw.cfg.mode ≠ .sr → tw.units = []
  /-- A disarmed shared timer has rem = 0 (10_state.md R39, R48). -/
  disarmedRem : tw.shared.armed = false → tw.shared.rem = 0#24
  /-- While stopped, no timer is armed (42_txwindow_timers.md R241). -/
  stoppedQuiet : tw.stopped = true → tw.shared.armed = false ∧ tw.units = []
  /-- ABORT can be set only in GBN (42_txwindow_timers.md R221). -/
  abortGbn : tw.abort = true → tw.cfg.mode = .gbn
  /-- At most one valid slot holds a given sequence (42_txwindow_timers.md R259). -/
  unitsDistinct : (tw.units.map (·.seq)).Nodup
  /-- Every live unit lies behind next by less than 2^31 (42_txwindow_timers.md R260). -/
  liveSpan : ∀ t ∈ tw.units, 0 < (dist t.seq tw.next).toNat ∧ (dist t.seq tw.next).toNat < 2 ^ 31
  /-- A unit's retries never exceed MAX_RETRIES (42_txwindow_timers.md R255). -/
  slotRetries : ∀ t ∈ tw.units, t.retries.toNat ≤ tw.cfg.maxRetries.toNat
  /-- The GBN retry counter never exceeds MAX_RETRIES (42_txwindow_timers.md R255). -/
  gbnRetries : tw.cfg.mode = .gbn → tw.retry.toNat ≤ tw.cfg.maxRetries.toNat
  /-- RTO_MIN <= rto <= RTO_MAX (42_txwindow_timers.md R244). -/
  rtoBound : Config.rtoMin ≤ tw.est.rto.toNat ∧ tw.est.rto.toNat ≤ Config.rtoMax
  /-- sa stays below 2^27 and sv below 2^26, which is what keeps both "below 2^28" (42_txwindow_timers.md R243) from step to step. -/
  estBound : tw.est.sa.toNat < 2 ^ 27 ∧ tw.est.sv.toNat < 2 ^ 26

/-- No expiry waits while EVT has room: "An expired timer is never lost" (42_txwindow_timers.md R251). -/
def NoExpiryWaits (s : State) : Prop :=
  s.tw.serveOldest Config.giveupSlides Config.srSlide = none ∨ Config.evtDepth ≤ s.evt.length

/-! ### RB -/

/-- The valid RB slots, in index order (10_state.md R50). -/
def Reorder.units (rb : Reorder) : List RbSlot := rb.slots.reduceOption

/-- The invariant of RB. -/
structure RbInv (rb : Reorder) : Prop where
  /-- There are ROB_SLOTS slots (10_state.md R50). -/
  slotCount : rb.slots.length = Config.robSlots
  /-- N is legal (10_state.md R32). -/
  nLegal : 1 ≤ rb.n.toNat ∧ rb.n.toNat ≤ Config.winMax
  /-- At most one valid slot holds a given seq (10_state.md R50). -/
  unitsDistinct : (rb.units.map (·.seq)).Nodup
  /-- A stored payload is no longer than MAX_PAYLOAD (10_state.md R50). -/
  payloadBound : ∀ r ∈ rb.units, r.payload.length ≤ Config.maxPayload
  /-- A stored CONN payload is not empty (10_state.md R50, 41_reorder.md R196). -/
  connPayload : rb.mode = .conn → ∀ r ∈ rb.units, r.payload ≠ []
  /-- In SR, every valid slot has 0 < dist(RB_EXP, seq) < N (10_state.md R56 1). -/
  srWindow : rb.mode = .sr → ∀ r ∈ rb.units, 0 < (dist rb.exp r.seq).toNat ∧ (dist rb.exp r.seq).toNat < rb.n.toNat
  /-- In CONN, every valid slot has ahead(seq, RB_EXP) (10_state.md R56 2). -/
  connAhead : rb.mode = .conn → ∀ r ∈ rb.units, ahead r.seq rb.exp = true
  /-- In GBN, and in OFF, no slot is valid (10_state.md R56 3, R43). -/
  noSlots : rb.mode = .gbn ∨ rb.mode = .off → rb.units = []

/-! ### The queues, the buffers and STATUS -/

/-- DLV and EVT hold no more entries than their depths, and no delivered payload is longer than MAX_PAYLOAD (10_state.md R51, R52). -/
structure QueueInv (s : State) : Prop where
  dlvBound : s.dlv.length ≤ Config.dlvDepth
  evtBound : s.evt.length ≤ Config.evtDepth
  payloads : ∀ e ∈ s.dlv, e.payload.length ≤ Config.maxPayload

/-- The latch's payload has at most 1015 bytes, and a segment's at most 1003 (10_state.md R47, 30_encoding.md R104). -/
def LatchInv (s : State) : Prop :=
  ∀ l, s.latch = some l → l.payload.length ≤ 1015 ∧ (l.fmt = .seg → l.payload.length ≤ 1003)

/-- Every listed byte lies in IBUF or OBUF (20_memory.md R86). -/
def Memory.inBuffers (m : Memory) : Prop := ∀ c ∈ m.cells, 0x400 ≤ c.1 ∧ c.1 < 0xC00

/-- The buffers are in canonical form and hold nothing outside IBUF and OBUF. -/
def MemInv (s : State) : Prop := s.mem.wf = true ∧ s.mem.inBuffers

/-- ERR is 1 exactly when ERRCODE names an error, and codes 11-15 are never written (60_exceptions.md R300). -/
def ErrInv (s : State) : Prop := (s.err = true ↔ s.errcode ≠ 0#4) ∧ s.errcode.toNat ≤ 10

/-! ### Words the statements share -/

/-- Opcode opc is a CMD-R command: with F = 0 and LEN = 0 its word is i, and RSVD otherwise (30_encoding.md R101, R102). -/
def DecodesR (opc : BitVec 8) (i : Instr) : Prop :=
  ∀ w : Word, w.extractLsb' 0 8 = opc →
    decode w = if w.extractLsb' 8 8 = 0#8 ∧ w.extractLsb' 16 16 = 0#16 then .ok i else .error .rsvd

/-- Opcode opc is a CMD-L command: with F = 0 its word is the command of its LEN, and RSVD otherwise (30_encoding.md R101, R102). -/
def DecodesL (opc : BitVec 8) (mk : Nat → Instr) : Prop :=
  ∀ w : Word, w.extractLsb' 0 8 = opc →
    decode w = if w.extractLsb' 8 8 = 0#8 then .ok (mk (w.extractLsb' 16 16).toNat) else .error .rsvd

/-- The state after a successful command that wrote RES and nothing else (10_state.md R25, R27). -/
def State.answered (s : State) (r0 r1 r2 r3 r4 r5 : Word) : State :=
  { s with res := { r0 := r0, r1 := r1, r2 := r2, r3 := r3, r4 := r4, r5 := r5 }, err := false, errcode := 0#4 }

/-- The state after a failed command (00_scope.md R10). -/
def State.failedWith (s : State) (code : BitVec 4) : State := { s with err := true, errcode := code }

/-- The outcome of a successful RB_PUSH: the action code, the ACK if any, the entries delivered, and RB after (41_reorder.md R180). -/
def pushOutcome (s : State) (act : Word) (ack : Option Word) (d : List DlvEntry) (rb : Reorder) :
    Host.Outcome State Fault Refusal :=
  .next (({ s with dlv := s.dlv ++ d, rb := rb, latch := none }).answered act (if ack.isSome then 1#32 else 0#32)
    (ack.getD 0#32) (BitVec.ofNat 32 d.length) rb.exp 0#32)

/-- Slot j is the lowest-index free slot of a pool. -/
def LowestFree {α : Type} (slots : List (Option α)) (j : Nat) : Prop :=
  slots[j]? = some none ∧ ∀ k < j, slots[k]? ≠ some none

/-- The bytes of OBUF a command writes, counted from OBUF[0] (20_memory.md R84): its stated output length. -/
def outputLength : Instr → State → Nat
  | .encFrame len, _ => 9 + len
  | .encSeg len, _ => 21 + len
  | .decFrame len, _ => len - 9
  | .decSeg len, _ => len - 21
  | .dlvPop, s => (s.dlv.head?.map (·.payload.length)).getD 0
  | _, _ => 0

end Sys2Proof.Machine
end

