-- ==== Sys2Proof/Certificates/Slice0/Obligations.lean ====
section
/-! DEFINITION. What the provers are asked to prove of the model: one statement each, from the numbered rules of spec/. -/

open Sys2Proof Sys2Proof.Machine

/-! ### Encoding -/

/-- Tier 3. Every well-formed command, with every operand, is read back from its word (30_encoding.md R101, R103). -/
def Obligations.EncodeThenDecode : Prop :=
  ∀ i : Instr, i.wellFormed = true → decode (encode i) = .ok i

/-- Tier 2. A word that is a command is the word of that command and of no other (30_encoding.md R102). -/
def Obligations.DecodeThenEncode : Prop :=
  ∀ (w : Word) (i : Instr), decode w = .ok i → i.wellFormed = true ∧ encode i = w

/-- Tier 1. Words written from R101 and R103: those of 95_test_vectors.md §3-§6, the example 0x00000601 of R281 (43_control.md), and
0x00000130, TW_INIT with F[0] (R103, R105). -/
def Obligations.VectorWordsDecode : Prop :=
  decode 0x00050010#32 = .ok (.encFrame 5) ∧ decode 0x000E0011#32 = .ok (.decFrame 14) ∧
  decode 0x00020012#32 = .ok (.encSeg 2) ∧ decode 0x00170013#32 = .ok (.decSeg 23) ∧
  decode 0x00000020#32 = .ok .rbPush ∧ decode 0x00000036#32 = .ok .rtoSample ∧
  decode 0x00000601#32 = .ok (.clr false true true false) ∧ decode 0x00000130#32 = .ok (.twInit true) ∧
  decode 0x00000110#32 = .error .rsvd ∧ decode 0x00000131#32 = .error .rsvd ∧ decode 0x00001001#32 = .error .rsvd ∧
  decode 0x00000230#32 = .error .rsvd ∧ decode 0x00000002#32 = .error .badOpc

/-- Tier 2. R102: the OPC check, then the reserved bits, then the command's own rule, whose first check is its LEN limit; every
word selects exactly one command or fails with BAD_OPC or RSVD. -/
def Obligations.WordChecksInOrder : Prop :=
  ∀ (w : Word) (s : State),
    let opc := w.extractLsb' 0 8
    let defined : List (BitVec 8) :=
      [0x00#8, 0x01#8, 0x10#8, 0x11#8, 0x12#8, 0x13#8, 0x20#8, 0x21#8, 0x22#8, 0x30#8, 0x31#8, 0x32#8, 0x33#8, 0x34#8, 0x35#8, 0x36#8]
    let reserved : Word :=
      if opc = 0x10#8 ∨ opc = 0x11#8 ∨ opc = 0x12#8 ∨ opc = 0x13#8 then 0x0000FF00#32
      else if opc = 0x01#8 then 0xFFFFF000#32
      else if opc = 0x30#8 then 0xFFFFFE00#32
      else 0xFFFFFF00#32
    (opc ∉ defined → runWord w s = .next (s.failedWith 1#4)) ∧
    (opc ∈ defined → w &&& reserved ≠ 0#32 → runWord w s = .next (s.failedWith 2#4)) ∧
    (opc ∈ defined → w &&& reserved = 0#32 → ∃ i, decode w = .ok i ∧ i.opcode = opc ∧ runWord w s = exec i s) ∧
    (∀ len, 1015 < len → exec (.encFrame len) s = .next (s.failedWith 3#4)) ∧
    (∀ len, 1024 < len → exec (.decFrame len) s = .next (s.failedWith 3#4)) ∧
    (∀ len, 1003 < len → exec (.encSeg len) s = .next (s.failedWith 3#4)) ∧
    (∀ len, 1024 < len → exec (.decSeg len) s = .next (s.failedWith 3#4))

/-! ### One step -/

/-- Tier 1. When the engine's turn comes and the pending word decodes to i, the step is exec of i with the pending command
emptied, and the arbiter after it (10_state.md R53); a word that is no command fails with its error there (30_encoding.md R102); the step
that withFetchWord sets up runs exactly the word's command. That an empty trace is the engine's turn is the model's choice (log 2). -/
def Obligations.StepRunsPendingCommand : Prop :=
  (∀ (s : State) (w : Word) (i : Instr) (rest : List Stimulus),
    s.pending = some w → decode w = .ok i → (s.trace = .engine :: rest ∨ s.trace = [] ∧ rest = []) →
    step s =
      match exec i { s with pending := none, trace := rest } with
      | .next t => .next t.arbitrate
      | .fault r => .fault r
      | .refused r => .refused r) ∧
  (∀ (s : State) (w : Word) (rest : List Stimulus), s.pending = some w → (s.trace = .engine :: rest ∨ s.trace = [] ∧ rest = []) →
    step s = complete { s with trace := rest } ∧
    (decode w = .error .badOpc → step s = .next (({ s with pending := none, trace := rest }).failedWith 1#4).arbitrate) ∧
    (decode w = .error .rsvd → step s = .next (({ s with pending := none, trace := rest }).failedWith 2#4).arbitrate)) ∧
  ∀ (s t : State) (w : Word) (i : Instr), decode w = .ok i → exec i { s with pending := none } = .next t →
    step (s.withFetchWord 32 w.toNat) = .next t.arbitrate

/-- Tier 1. Every other stimulus is one step of its own agent, and the engine's turn with nothing pending changes nothing
(20_memory.md R91, 70_reset_and_hazards.md R340). That the trace orders the agents, and that a pulse of rst_n is one of its steps,
are the model's choices (log 1, log 11). -/
def Obligations.StepTakesOneStimulus : Prop :=
  ∀ (s : State) (rest : List Stimulus),
    (∀ size a, step { s with trace := .read size a :: rest } = .next (({ s with trace := rest }).hostRead size a.toNat)) ∧
    (∀ size a w, step { s with trace := .write size a w :: rest } = .next (({ s with trace := rest }).hostWrite size a.toNat w)) ∧
    step { s with trace := .tick :: rest } = .next ({ s with trace := rest }).tick ∧
    step { s with trace := .hwReset :: rest } = .next ({ s with trace := rest }).hwReset ∧
    (s.pending = none → step { s with trace := .engine :: rest } = .next { s with trace := rest })

/-- Tier 2. R10, R301: a completed command that leaves ERR = 1 has set ERR and ERRCODE to one of the ten codes, emptied the pending
command and run the arbiter, and changed nothing else. -/
def Obligations.CommandErrorsArePrecise : Prop :=
  ∀ (s t : State) (w : Word), s.pending = some w → complete s = .next t → t.err = true →
    ∃ c : BitVec 4, 1 ≤ c.toNat ∧ c.toNat ≤ 10 ∧ t = (({ s with pending := none }).failedWith c).arbitrate

/-! ### Control commands -/

/-- Tier 1. R280. -/
def Obligations.NopWritesZeroResults : Prop :=
  DecodesR 0x00#8 .nop ∧ ∀ s : State, exec .nop s = .next (s.answered 0#32 0#32 0#32 0#32 0#32 0#32)

/-- Tier 1. R281: the word, its reserved bits, and the four selects. -/
def Obligations.ClrClearsSelected : Prop :=
  (∀ w : Word, w.extractLsb' 0 8 = 0x01#8 → decode w =
    if w.extractLsb' 12 20 = 0#20 then .ok (.clr (w.getLsbD 8) (w.getLsbD 9) (w.getLsbD 10) (w.getLsbD 11))
    else .error .rsvd) ∧
  ∀ (s : State) (l d e c : Bool), exec (.clr l d e c) s = .next
    (({ s with
        latch := if l then none else s.latch,
        dlv := if d then [] else s.dlv,
        evt := if e then [] else s.evt,
        tw := { s.tw with
          giveupCnt := if c then 0#32 else s.tw.giveupCnt, retxCnt := if c then 0#32 else s.tw.retxCnt } }).answered
      0#32 0#32 0#32 0#32 0#32 0#32)

/-! ### Codec commands -/

/-- Tier 2. R146, R141: the frame in OBUF, its digest over type, sequence and payload, and nothing else changed. -/
def Obligations.EncFrameWritesFrame : Prop :=
  DecodesL 0x10#8 .encFrame ∧
  (∀ (s : State) (len : Nat), 1015 < len → exec (.encFrame len) s = .next (s.failedWith 3#4)) ∧
  ∀ (s : State) (len : Nat), len ≤ 1015 →
    let t := s.args.arg0.extractLsb' 0 8
    let q := s.args.arg1
    let p := (List.range len).map fun i => s.mem.byteAt (0x400 + i)
    let d := digestFn ([t] ++ be32 q ++ p)
    ∃ u : State, exec (.encFrame len) s = .next u ∧
      (List.range (9 + len)).map (fun i => u.mem.byteAt (0x800 + i)) = [t] ++ be32 q ++ be32 d ++ p ∧
      (∀ a, a < 0x800 ∨ 0x800 + (9 + len) ≤ a → u.mem.byteAt a = s.mem.byteAt a) ∧
      { u with mem := s.mem } = s.answered (BitVec.ofNat 32 (9 + len)) d 0#32 0#32 0#32 0#32

/-- Tier 2. R150: BAD_LEN, SHORT, and the parse of a long enough datagram with its verdict. -/
def Obligations.DecFrameParsesDatagram : Prop :=
  DecodesL 0x11#8 .decFrame ∧
  (∀ (s : State) (len : Nat), 1024 < len → exec (.decFrame len) s = .next (s.failedWith 3#4)) ∧
  (∀ (s : State) (len : Nat), len < 9 →
    exec (.decFrame len) s = .next (({ s with latch := none }).answered 2#32 0#32 0#32 0#32 0#32 0#32)) ∧
  ∀ (s : State) (len : Nat), 9 ≤ len → len ≤ 1024 →
    let b := fun i => s.mem.byteAt (0x400 + i)
    let p := (List.range (len - 9)).map fun i => b (9 + i)
    let q := b 1 ++ (b 2 ++ (b 3 ++ b 4))
    let rdg := b 5 ++ (b 6 ++ (b 7 ++ b 8))
    let cdg := digestFn ([b 0, b 1, b 2, b 3, b 4] ++ p)
    ∃ u : State, exec (.decFrame len) s = .next u ∧
      (List.range (len - 9)).map (fun i => u.mem.byteAt (0x800 + i)) = p ∧
      (∀ a, a < 0x800 ∨ 0x800 + (len - 9) ≤ a → u.mem.byteAt a = s.mem.byteAt a) ∧
      { u with mem := s.mem } =
        ({ s with latch := some { fmt := .frame, ok := decide (rdg = cdg), type := b 0, seq := q, ack := 0#32, flags := 0#8,
                                  window := 0#16, reserved := 0#16, payload := p } }).answered
          (if rdg = cdg then 0#32 else 1#32) ((b 0).setWidth 32) q (BitVec.ofNat 32 (len - 9)) rdg cdg

/-- Tier 2. R154, R142: the segment in OBUF, its digest over the 17 bytes before it and the payload, and nothing else changed. -/
def Obligations.EncSegWritesSegment : Prop :=
  DecodesL 0x12#8 .encSeg ∧
  (∀ (s : State) (len : Nat), 1003 < len → exec (.encSeg len) s = .next (s.failedWith 3#4)) ∧
  ∀ (s : State) (len : Nat), len ≤ 1003 →
    let p := (List.range len).map fun i => s.mem.byteAt (0x400 + i)
    let h17 := be16 (s.args.arg0.extractLsb' 0 16) ++ be16 (s.args.arg0.extractLsb' 16 16) ++ be32 s.args.arg1 ++ be32 s.args.arg2 ++
      [s.args.arg3.extractLsb' 0 8] ++ be16 (s.args.arg3.extractLsb' 8 16) ++ be16 0#16
    let d := digestFn (h17 ++ p)
    ∃ u : State, exec (.encSeg len) s = .next u ∧
      (List.range (21 + len)).map (fun i => u.mem.byteAt (0x800 + i)) = h17 ++ be32 d ++ p ∧
      (∀ a, a < 0x800 ∨ 0x800 + (21 + len) ≤ a → u.mem.byteAt a = s.mem.byteAt a) ∧
      { u with mem := s.mem } = s.answered (BitVec.ofNat 32 (21 + len)) d 0#32 0#32 0#32 0#32

/-- Tier 2. R158: BAD_LEN, SHORT, and the parse of a long enough datagram with its verdict. -/
def Obligations.DecSegParsesDatagram : Prop :=
  DecodesL 0x13#8 .decSeg ∧
  (∀ (s : State) (len : Nat), 1024 < len → exec (.decSeg len) s = .next (s.failedWith 3#4)) ∧
  (∀ (s : State) (len : Nat), len < 21 →
    exec (.decSeg len) s = .next (({ s with latch := none }).answered 2#32 0#32 0#32 0#32 0#32 0#32)) ∧
  ∀ (s : State) (len : Nat), 21 ≤ len → len ≤ 1024 →
    let b := fun i => s.mem.byteAt (0x400 + i)
    let be16At := fun i => b i ++ b (i + 1)
    let be32At := fun i => b i ++ (b (i + 1) ++ (b (i + 2) ++ b (i + 3)))
    let p := (List.range (len - 21)).map fun i => b (21 + i)
    let cdg := digestFn ((List.range 17).map b ++ p)
    ∃ u : State, exec (.decSeg len) s = .next u ∧
      (List.range (len - 21)).map (fun i => u.mem.byteAt (0x800 + i)) = p ∧
      (∀ a, a < 0x800 ∨ 0x800 + (len - 21) ≤ a → u.mem.byteAt a = s.mem.byteAt a) ∧
      { u with mem := s.mem } =
        ({ s with latch := some { fmt := .seg, ok := decide (be32At 17 = cdg), type := 0#8, seq := be32At 4, ack := be32At 8,
                                  flags := b 12, window := be16At 13, reserved := be16At 15, payload := p } }).answered
          (if be32At 17 = cdg then 0#32 else 1#32)
          ((be16At 0).setWidth 32 ||| ((be16At 2).setWidth 32 <<< 16)) (be32At 4) (be32At 8)
          ((b 12).setWidth 32 ||| ((be16At 13).setWidth 32 <<< 8))
          (BitVec.ofNat 32 (len - 21) ||| ((be16At 15).setWidth 32 <<< 16))

/-- Tier 2. R147: what ENC_FRAME writes, copied to IBUF, decodes with verdict OK to the same type, sequence and payload. -/
def Obligations.FrameSurvivesTheWire : Prop :=
  ∀ (s : State) (len : Nat), len ≤ 1015 → ∃ t, exec (.encFrame len) s = .next t ∧
    ∀ u : State, u.mem.bytes 0x400 (9 + len) = t.mem.bytes 0x800 (9 + len) →
      ∃ v l, exec (.decFrame (9 + len)) u = .next v ∧ v.res.r0 = 0#32 ∧ v.res.r1 = (s.args.arg0.extractLsb' 0 8).setWidth 32 ∧
        v.res.r2 = s.args.arg1 ∧ v.res.r3 = BitVec.ofNat 32 len ∧ v.mem.bytes 0x800 len = s.mem.bytes 0x400 len ∧
        v.latch = some l ∧ l.fmt = .frame ∧ l.ok = true ∧ l.type = s.args.arg0.extractLsb' 0 8 ∧ l.seq = s.args.arg1 ∧
        l.payload = s.mem.bytes 0x400 len

/-- Tier 2. R155: what ENC_SEG writes, copied to IBUF, decodes with verdict OK to the same fields, a reserved field of 0 and the
same payload. -/
def Obligations.SegmentSurvivesTheWire : Prop :=
  ∀ (s : State) (len : Nat), len ≤ 1003 → ∃ t, exec (.encSeg len) s = .next t ∧
    ∀ u : State, u.mem.bytes 0x400 (21 + len) = t.mem.bytes 0x800 (21 + len) →
      ∃ v l, exec (.decSeg (21 + len)) u = .next v ∧ v.res.r0 = 0#32 ∧ v.res.r1 = s.args.arg0 ∧ v.res.r2 = s.args.arg1 ∧
        v.res.r3 = s.args.arg2 ∧ v.res.r4 = (s.args.arg3.extractLsb' 0 24).setWidth 32 ∧ v.res.r5 = BitVec.ofNat 32 len ∧
        v.latch = some l ∧ l.fmt = .seg ∧ l.ok = true ∧ l.reserved = 0#16 ∧ l.payload = s.mem.bytes 0x400 len

/-- Tier 2. R152: a decode's results, error, latch and output depend on IBUF[0 .. LEN) alone. -/
def Obligations.DecodeReadsOnlyItsBytes : Prop :=
  ∀ (s u : State) (len : Nat) (i : Instr), (i = .decFrame len ∨ i = .decSeg len) → len ≤ 1024 →
    (∀ k < len, s.mem.byteAt (0x400 + k) = u.mem.byteAt (0x400 + k)) →
    ∃ t v, exec i s = .next t ∧ exec i u = .next v ∧ t.res = v.res ∧ t.latch = v.latch ∧ t.err = v.err ∧ t.errcode = v.errcode ∧
      ∀ a, 0x800 ≤ a → a < 0x800 + outputLength i s → t.mem.byteAt a = v.mem.byteAt a

/-! ### The reorder buffer and the delivery queue -/

/-- Tier 1. R180's checks before the mode rule, in their order. -/
def Obligations.RbPushChecksInOrder : Prop :=
  DecodesR 0x20#8 .rbPush ∧
  ∀ s : State,
    (s.rb.mode = .off → exec .rbPush s = .next (s.failedWith 4#4)) ∧
    (s.rb.mode ≠ .off → s.latch = none → exec .rbPush s = .next (s.failedWith 6#4)) ∧
    (∀ l, s.latch = some l → (s.rb.mode = .gbn ∨ s.rb.mode = .sr) → l.fmt ≠ .frame →
      exec .rbPush s = .next (s.failedWith 4#4)) ∧
    (∀ l, s.latch = some l → s.rb.mode = .conn → l.fmt ≠ .seg → exec .rbPush s = .next (s.failedWith 4#4))

/-- Tier 1. R183, R182: the GBN receive rule, branch by branch, and DLV_ROOM for a delivery (R180). That an oversize frame out of sequence
is DISCARDED and not OVERSIZE is the model's reading of R183 against R199 (log 22). -/
def Obligations.GbnReceiveRule : Prop :=
  ∀ (s : State) (l : Latch), s.rb.mode = .gbn → s.latch = some l → l.fmt = .frame →
    let e := s.rb.exp
    (s.dlv.length ≤ Config.dlvDepth → l.ok = false → exec .rbPush s = pushOutcome s 4#32 (some (e - 1#32)) [] s.rb) ∧
    (s.dlv.length ≤ Config.dlvDepth → l.ok = true → l.type ≠ Config.typeData → exec .rbPush s = pushOutcome s 5#32 none [] s.rb) ∧
    (s.dlv.length ≤ Config.dlvDepth → l.ok = true → l.type = Config.typeData → l.seq ≠ e →
      exec .rbPush s = pushOutcome s 8#32 (some (e - 1#32)) [] s.rb) ∧
    (s.dlv.length ≤ Config.dlvDepth → l.ok = true → l.type = Config.typeData → l.seq = e → Config.maxPayload < l.payload.length →
      exec .rbPush s = pushOutcome s 6#32 none [] s.rb) ∧
    (l.ok = true → l.type = Config.typeData → l.seq = e → l.payload.length ≤ Config.maxPayload →
      (Config.dlvDepth < s.dlv.length + 1 → exec .rbPush s = .next (s.failedWith 7#4)) ∧
      (s.dlv.length + 1 ≤ Config.dlvDepth →
        exec .rbPush s = pushOutcome s 0#32 (some e) [{ seq := e, payload := l.payload }] { s.rb with exp := e + 1#32 }))

/-- Tier 2. R186: the branches of the SR receive rule that deliver nothing, each with its action, ACK and RB change. That an empty payload
is buffered like any other is the model's reading of R186 against R50 (log 17), and that an oversize frame outside the window is
DUPLICATE or OUT_OF_WINDOW and not OVERSIZE its reading of R186 against R199 (log 22). NO_SLOT is stated too, for the states that no run
reaches: SrNeverRunsOutOfSlots rules it out where RB keeps its invariant. -/
def Obligations.SrReceiveRuleWithoutDelivery : Prop :=
  ∀ (s : State) (l : Latch), s.rb.mode = .sr → s.latch = some l → l.fmt = .frame → s.dlv.length ≤ Config.dlvDepth →
    let e := s.rb.exp
    let d := (dist e l.seq).toNat
    let n := s.rb.n.toNat
    (l.ok = false → exec .rbPush s = pushOutcome s 4#32 none [] s.rb) ∧
    (l.ok = true → l.type ≠ Config.typeData → exec .rbPush s = pushOutcome s 5#32 none [] s.rb) ∧
    (l.ok = true → l.type = Config.typeData →
      (d < n → Config.maxPayload < l.payload.length → exec .rbPush s = pushOutcome s 6#32 none [] s.rb) ∧
      (d < n → l.payload.length ≤ Config.maxPayload → d ≠ 0 → (∃ r ∈ s.rb.units, r.seq = l.seq) →
        exec .rbPush s = pushOutcome s 2#32 (some l.seq) [] s.rb) ∧
      (d < n → l.payload.length ≤ Config.maxPayload → d ≠ 0 → (∀ r ∈ s.rb.units, r.seq ≠ l.seq) →
        ∀ j : Nat, LowestFree s.rb.slots j → exec .rbPush s = pushOutcome s 1#32 (some l.seq) []
          { s.rb with slots := s.rb.slots.set j (some { seq := l.seq, payload := l.payload }) }) ∧
      (d < n → l.payload.length ≤ Config.maxPayload → d ≠ 0 → (∀ r ∈ s.rb.units, r.seq ≠ l.seq) →
        (∀ j : Nat, s.rb.slots[j]? ≠ some none) → exec .rbPush s = pushOutcome s 7#32 none [] s.rb) ∧
      (n ≤ d → 2 ^ 31 ≤ d → exec .rbPush s = pushOutcome s 2#32 (some l.seq) [] s.rb) ∧
      (n ≤ d → d < 2 ^ 31 → exec .rbPush s = pushOutcome s 3#32 none [] s.rb))

/-- Tier 2. R186, R187, R201: an in-order SR arrival. It is delivered with the buffered frames at e+1, e+2, ... up to the first
missing sequence; RB_EXP ends one past the last; exactly the drained slots are freed; or, without room, DLV_ROOM and nothing. -/
def Obligations.SrInOrderArrivalDrains : Prop :=
  ∀ (s : State) (l : Latch), RbInv s.rb → s.rb.mode = .sr → s.latch = some l → l.fmt = .frame → l.ok = true →
    l.type = Config.typeData → l.seq = s.rb.exp → l.payload.length ≤ Config.maxPayload →
    ∃ (d : List DlvEntry) (rb : Reorder),
      (Config.dlvDepth < s.dlv.length + d.length → exec .rbPush s = .next (s.failedWith 7#4)) ∧
      (s.dlv.length + d.length ≤ Config.dlvDepth → exec .rbPush s = pushOutcome s 0#32 (some l.seq) d rb) ∧
      d.head? = some { seq := l.seq, payload := l.payload } ∧
      (∀ (k : Nat) (e : DlvEntry), d[k]? = some e → e.seq = s.rb.exp + BitVec.ofNat 32 k) ∧
      (∀ (k : Nat) (e : DlvEntry), d[k + 1]? = some e → ({ seq := e.seq, payload := e.payload } : RbSlot) ∈ s.rb.units) ∧
      (∀ r ∈ s.rb.units, r.seq ≠ s.rb.exp + BitVec.ofNat 32 d.length) ∧
      rb.mode = s.rb.mode ∧ rb.n = s.rb.n ∧ rb.exp = s.rb.exp + BitVec.ofNat 32 d.length ∧
      rb.slots = s.rb.slots.map fun (o : Option RbSlot) => o.filter fun (r : RbSlot) => !(d.map fun (e : DlvEntry) => e.seq).contains r.seq

/-- Tier 2. R192: in SR mode at most n - 1 slots are valid, so NO_SLOT is never answered. -/
def Obligations.SrNeverRunsOutOfSlots : Prop :=
  ∀ s t : State, RbInv s.rb → s.rb.mode = .sr → exec .rbPush s = .next t →
    s.rb.units.length ≤ s.rb.n.toNat - 1 ∧ (t.err = false → t.res.r0 ≠ 7#32)

/-- Tier 2. R193: the branches of the Connection receive rule that deliver nothing, each with its action, ACK and RB change.That a corrupt
oversize segment is CORRUPT and not OVERSIZE is the model's reading of R193 against R199 (log 22). -/
def Obligations.ConnReceiveRuleWithoutDelivery : Prop :=
  ∀ (s : State) (l : Latch), s.rb.mode = .conn → s.latch = some l → l.fmt = .seg → s.dlv.length ≤ Config.dlvDepth →
    let e := s.rb.exp
    let d := (dist e l.seq).toNat
    (l.ok = false → exec .rbPush s = pushOutcome s 4#32 none [] s.rb) ∧
    (l.ok = true → l.payload = [] → exec .rbPush s = pushOutcome s 5#32 none [] s.rb) ∧
    (l.ok = true → Config.maxPayload < l.payload.length → exec .rbPush s = pushOutcome s 6#32 none [] s.rb) ∧
    (l.ok = true → l.payload ≠ [] → l.payload.length ≤ Config.maxPayload →
      (0 < d → d < 2 ^ 31 → ∀ (j : Nat) (r : RbSlot), s.rb.slots[j]? = some (some r) → r.seq = l.seq →
        (∀ k < j, ∀ r' : RbSlot, s.rb.slots[k]? = some (some r') → r'.seq ≠ l.seq) →
        exec .rbPush s = pushOutcome s 1#32 (some e) []
          { s.rb with slots := s.rb.slots.set j (some { seq := l.seq, payload := l.payload }) }) ∧
      (0 < d → d < 2 ^ 31 → (∀ r ∈ s.rb.units, r.seq ≠ l.seq) →
        ∀ j : Nat, LowestFree s.rb.slots j → exec .rbPush s = pushOutcome s 1#32 (some e) []
          { s.rb with slots := s.rb.slots.set j (some { seq := l.seq, payload := l.payload }) }) ∧
      (0 < d → d < 2 ^ 31 → (∀ r ∈ s.rb.units, r.seq ≠ l.seq) → (∀ j : Nat, s.rb.slots[j]? ≠ some none) →
        exec .rbPush s = pushOutcome s 7#32 (some e) [] s.rb) ∧
      (2 ^ 31 ≤ d → exec .rbPush s = pushOutcome s 2#32 (some e) [] s.rb))

/-- Tier 2. R193, R195, R201: a Connection segment at the expected byte. It is delivered with the buffered segments that follow it
without a gap; RB_EXP and the ACK are the byte after the last; the drained and the overtaken slots are freed; or DLV_ROOM and nothing. The comparisons
of sequences, here and in RbInv, are those of 00_scope.md R8. -/
def Obligations.ConnInOrderArrivalDrains : Prop :=
  (∀ a b : Word, dist a b = b - a ∧ (behind a b = true ↔ 2 ^ 31 ≤ (a - b).toNat) ∧
    (ahead a b = true ↔ 0 < (a - b).toNat ∧ (a - b).toNat < 2 ^ 31)) ∧
  ∀ (s : State) (l : Latch), RbInv s.rb → s.rb.mode = .conn → s.latch = some l → l.fmt = .seg → l.ok = true →
    l.payload ≠ [] → l.payload.length ≤ Config.maxPayload → l.seq = s.rb.exp →
    ∃ (d : List DlvEntry) (rb : Reorder) (x : Word),
      (Config.dlvDepth < s.dlv.length + d.length → exec .rbPush s = .next (s.failedWith 7#4)) ∧
      (s.dlv.length + d.length ≤ Config.dlvDepth → exec .rbPush s = pushOutcome s 0#32 (some x) d rb) ∧
      d.head? = some { seq := l.seq, payload := l.payload } ∧
      (∀ (k : Nat) (e e' : DlvEntry), d[k]? = some e → d[k + 1]? = some e' →
        e'.seq = e.seq + BitVec.ofNat 32 e.payload.length ∧ ({ seq := e'.seq, payload := e'.payload } : RbSlot) ∈ s.rb.units) ∧
      (∀ e, d.getLast? = some e → x = e.seq + BitVec.ofNat 32 e.payload.length) ∧
      (∀ r ∈ s.rb.units, r.seq ≠ x) ∧
      rb.mode = s.rb.mode ∧ rb.n = s.rb.n ∧ rb.exp = x ∧
      rb.slots = s.rb.slots.map fun (o : Option RbSlot) => o.filter fun (r : RbSlot) => !(d.map fun (e : DlvEntry) => e.seq).contains r.seq && !behind r.seq x

/-- Tier 2. R204: which actions carry an ACK. -/
def Obligations.AcksOnlyWhereTheRuleSays : Prop :=
  ∀ s t : State, exec .rbPush s = .next t → t.err = false →
    let act := t.res.r0
    let silent := act = 3#32 ∨ act = 5#32 ∨ act = 6#32 ∨ (act = 4#32 ∧ s.rb.mode ≠ .gbn) ∨ (act = 7#32 ∧ s.rb.mode = .sr)
    (silent → t.res.r1 = 0#32 ∧ t.res.r2 = 0#32) ∧ (¬ silent → t.res.r1 = 1#32)

/-- Tier 1. R200. -/
def Obligations.RbSetexpFreesSlots : Prop :=
  DecodesR 0x21#8 .rbSetexp ∧
  ∀ s : State,
    (s.rb.mode = .off → exec .rbSetexp s = .next (s.failedWith 4#4)) ∧
    (s.rb.mode ≠ .off → exec .rbSetexp s = .next
      (({ s with rb := { s.rb with exp := s.args.arg0, slots := List.replicate s.rb.slots.length none } }).answered
        (BitVec.ofNat 32 s.rb.units.length) 0#32 0#32 0#32 0#32 0#32))

/-- Tier 2. R202: the head leaves, its payload lands in OBUF from offset 0, the rest of OBUF is unchanged. -/
def Obligations.DlvPopMovesHeadToObuf : Prop :=
  DecodesR 0x22#8 .dlvPop ∧
  (∀ s : State, s.dlv = [] → exec .dlvPop s = .next (s.failedWith 8#4)) ∧
  ∀ (s : State) (e : DlvEntry) (r : List DlvEntry), s.dlv = e :: r →
    ∃ u : State, exec .dlvPop s = .next u ∧
      (List.range e.payload.length).map (fun i => u.mem.byteAt (0x800 + i)) = e.payload ∧
      (∀ a, a < 0x800 ∨ 0x800 + e.payload.length ≤ a → u.mem.byteAt a = s.mem.byteAt a) ∧
      { u with mem := s.mem } = ({ s with dlv := r }).answered
        (BitVec.ofNat 32 e.payload.length) e.seq (BitVec.ofNat 32 r.length) 0#32 0#32 0#32

/-! ### The transmit window and the timers -/

/-- Tier 1. R220. -/
def Obligations.TwInitResetsWindow : Prop :=
  (∀ w : Word, w.extractLsb' 0 8 = 0x30#8 → decode w =
    if w.extractLsb' 9 23 = 0#23 then .ok (.twInit (w.getLsbD 8)) else .error .rsvd) ∧
  ∀ (s : State) (r : Bool), exec (.twInit r) s = .next
    (({ s with tw := { s.tw with
        base := s.args.arg0, next := s.args.arg0, shared := { armed := false, rem := 0#24 },
        slots := List.replicate s.tw.slots.length none, retry := 0#8, ptag := 0#32, abort := false, stopped := false,
        est := if r then { sa := 8000#32, sv := 0#32, rto := 1000#32 } else s.tw.est } }).answered
      0#32 0#32 0#32 0#32 0#32 0#32)

/-- Tier 1. R221: the mode, STOPPED and ABORTED checks of every TW command, in their order. -/
def Obligations.TwCommandLegality : Prop :=
  ∀ s : State,
    (∀ i, i = .twAdmit ∨ i = .twAck →
      (¬ s.tw.windowed → exec i s = .next (s.failedWith 4#4)) ∧
      (s.tw.windowed → s.tw.stopped = true → exec i s = .next (s.failedWith 10#4)) ∧
      (s.tw.windowed → s.tw.stopped = false → s.tw.abort = true → exec i s = .next (s.failedWith 9#4))) ∧
    (s.tw.cfg.mode ≠ .conn → exec .twArm s = .next (s.failedWith 4#4)) ∧
    (s.tw.cfg.mode = .conn → s.tw.stopped = true → exec .twArm s = .next (s.failedWith 10#4)) ∧
    (s.tw.cfg.mode ≠ .conn → exec .twCancel s = .next (s.failedWith 4#4)) ∧
    (∀ i, (i = .twStop ∨ i = .rtoSample ∨ ∃ r, i = .twInit r) → ∃ t, exec i s = .next t ∧ t.err = false)

/-- Tier 1. R222, R223, GBN: the next sequence, and the shared timer started only on an empty window; WFULL on a full one. -/
def Obligations.GbnAdmission : Prop :=
  ∀ s : State, s.tw.cfg.mode = .gbn → s.tw.stopped = false → s.tw.abort = false →
    (s.tw.cfg.n.toNat ≤ (dist s.tw.base s.tw.next).toNat → exec .twAdmit s = .next (s.failedWith 5#4)) ∧
    ((dist s.tw.base s.tw.next).toNat < s.tw.cfg.n.toNat → exec .twAdmit s = .next
      (({ s with tw := { s.tw with
          next := s.tw.next + 1#32,
          shared := if s.tw.base = s.tw.next then { armed := true, rem := s.tw.timeout } else s.tw.shared } }).answered
        s.tw.next (dist s.tw.base (s.tw.next + 1#32)) 0#32 0#32 0#32 0#32))

/-- Tier 2. R222, R224, R260, SR: the next sequence in the lowest free slot with a fresh timer; WFULL on a full window or a full pool;
and the stop where a live unit would be 2^31 behind (the stop itself is the model's treatment of R260, log 7). -/
def Obligations.SrAdmission : Prop :=
  DecodesR 0x31#8 .twAdmit ∧
  ∀ s : State, s.tw.cfg.mode = .sr → s.tw.stopped = false → s.tw.abort = false →
    (s.tw.cfg.n.toNat ≤ (dist s.tw.base s.tw.next).toNat → exec .twAdmit s = .next (s.failedWith 5#4)) ∧
    ((dist s.tw.base s.tw.next).toNat < s.tw.cfg.n.toNat →
      ((∀ j : Nat, s.tw.slots[j]? ≠ some none) → exec .twAdmit s = .next (s.failedWith 5#4)) ∧
      (∀ j : Nat, LowestFree s.tw.slots j →
        ((∀ t ∈ s.tw.units, (dist t.seq (s.tw.next + 1#32)).toNat < 2 ^ 31) → exec .twAdmit s = .next
          (({ s with tw := { s.tw with
              next := s.tw.next + 1#32,
              slots := s.tw.slots.set j (some { seq := s.tw.next, rem := s.tw.timeout, retries := 0#8 }) } }).answered
            s.tw.next (dist s.tw.base (s.tw.next + 1#32)) (BitVec.ofNat 32 j) 0#32 0#32 0#32)) ∧
        ((∃ t ∈ s.tw.units, 2 ^ 31 ≤ (dist t.seq (s.tw.next + 1#32)).toNat) → exec .twAdmit s = .fault .liveSpan)))

/-- Tier 1. R226, R227, R228, GBN: a cumulative ACK inside the window, and any other ignored. That TW_ACK runs for every k, also one that
R260 puts out of range, is the model's reading (log 8). -/
def Obligations.GbnAcknowledgment : Prop :=
  ∀ s : State, s.tw.cfg.mode = .gbn → s.tw.stopped = false → s.tw.abort = false →
    let k := s.args.arg0
    let b := s.tw.base
    ((dist b k).toNat < (dist b s.tw.next).toNat → exec .twAck s = .next
      (({ s with tw := { s.tw with
          base := k + 1#32, retry := 0#8,
          shared := if k + 1#32 = s.tw.next then { armed := false, rem := 0#24 } else { armed := true, rem := s.tw.timeout } } }).answered
        (dist b k + 1#32) b (k + 1#32) (dist (k + 1#32) s.tw.next) 0#32 0#32)) ∧
    ((dist b s.tw.next).toNat ≤ (dist b k).toNat →
      exec .twAck s = .next (s.answered 0#32 b b (dist b s.tw.next) 0#32 0#32))

/-- Tier 2. R226, R229, SR: the unit k freed if it is live, and the slide exactly when k is the base of a window that is not empty.
That TW_ACK runs for every k, also one that R260 puts out of range, is the model's reading (log 8). -/
def Obligations.SrAcknowledgment : Prop :=
  DecodesR 0x32#8 .twAck ∧
  ∀ s : State, TwInv s.tw → s.tw.cfg.mode = .sr → s.tw.stopped = false →
    let k := s.args.arg0
    let tw1 : TxWindow := { s.tw with slots := s.tw.slots.map fun (o : Option TimerSlot) => o.filter fun (t : TimerSlot) => t.seq != k }
    let tw2 : TxWindow := if k = s.tw.base ∧ s.tw.base ≠ s.tw.next then tw1.slide Config.srSlide else tw1
    exec .twAck s = .next (({ s with tw := tw2 }).answered
      (if k ∈ s.tw.units.map fun (t : TimerSlot) => t.seq then 1#32 else 0#32) s.tw.base tw2.base (dist tw2.base s.tw.next) 0#32 0#32)

/-- Tier 2. R230: SKIP moves the base one past the furthest acknowledged sequence of the window, and moves it nowhere if there is none.
R231: CONTIGUOUS moves the base through the contiguous acknowledged prefix and no further. 10_state.md R54: a sequence is acknowledged
exactly when it is in [base, next) and no valid slot holds it. -/
def Obligations.SlideRules : Prop :=
  ∀ tw : TxWindow,
    tw.outstanding = dist tw.base tw.next ∧
    (∀ x, tw.acked x = true ↔ (dist tw.base x).toNat < (dist tw.base tw.next).toNat ∧ ∀ t ∈ tw.units, t.seq ≠ x) ∧
    ((∀ x, tw.acked x = false) → tw.slide .skip = tw) ∧
    (∀ x, tw.acked x = true → (∀ y, tw.acked y = true → (dist tw.base y).toNat ≤ (dist tw.base x).toNat) →
      tw.slide .skip = { tw with base := x + 1#32 }) ∧
    ∃ j : Nat, j ≤ (dist tw.base tw.next).toNat ∧
      tw.slide .contiguous = { tw with base := tw.base + BitVec.ofNat 32 j } ∧
      (∀ i < j, tw.acked (tw.base + BitVec.ofNat 32 i) = true) ∧
      (j = (dist tw.base tw.next).toNat ∨ tw.acked (tw.base + BitVec.ofNat 32 j) = false)

/-- Tier 1. R236, R238: arming guards the tag with the current RTO; cancelling succeeds whether or not the timer is armed, stopped or
not; outside CONN both fail with MODE, and arming fails with STOPPED while stopped. -/
def Obligations.TwArmAndTwCancel : Prop :=
  DecodesR 0x33#8 .twArm ∧ DecodesR 0x34#8 .twCancel ∧
  (∀ s : State, s.tw.cfg.mode ≠ .conn →
    exec .twArm s = .next (s.failedWith 4#4) ∧ exec .twCancel s = .next (s.failedWith 4#4)) ∧
  (∀ s : State, s.tw.cfg.mode = .conn → s.tw.stopped = true → exec .twArm s = .next (s.failedWith 10#4)) ∧
  (∀ s : State, s.tw.cfg.mode = .conn → s.tw.stopped = false → exec .twArm s = .next
    (({ s with tw := { s.tw with
        ptag := s.args.arg0, retry := 0#8, shared := { armed := true, rem := s.tw.est.rto.setWidth 24 } } }).answered
      s.tw.est.rto 0#32 0#32 0#32 0#32 0#32)) ∧
  ∀ s : State, s.tw.cfg.mode = .conn → exec .twCancel s = .next
    (({ s with tw := { s.tw with shared := { armed := false, rem := 0#24 } } }).answered
      (if s.tw.shared.armed then 1#32 else 0#32) 0#32 0#32 0#32 0#32 0#32)

/-- Tier 1. R240. -/
def Obligations.TwStopCancelsEveryTimer : Prop :=
  DecodesR 0x35#8 .twStop ∧
  ∀ s : State, exec .twStop s = .next
    (({ s with tw := { s.tw with
        shared := { armed := false, rem := 0#24 }, slots := List.replicate s.tw.slots.length none, stopped := true } }).answered
      (BitVec.ofNat 32 ((if s.tw.shared.armed then 1 else 0) + s.tw.units.length)) 0#32 0#32 0#32 0#32 0#32)

/-- Tier 2. R243, R245, over estimators within their bounds (TwInv.estBound): the exact integer update under either order, nothing lost to
the 32-bit registers. -/
def Obligations.RtoSampleUpdatesEstimator : Prop :=
  DecodesR 0x36#8 .rtoSample ∧
  ∀ s : State, s.tw.est.sa.toNat < 2 ^ 27 → s.tw.est.sv.toNat < 2 ^ 26 →
    ∃ e : Estimator,
      let r := (s.args.arg0.extractLsb' 0 24).toNat
      let sa := s.tw.est.sa.toNat
      let sv := s.tw.est.sv.toNat
      let err : Int :=
        match Config.rttvarOrder with
        | .old => |(r : Int) - (sa / 8 : Nat)|
        | .new => |(r : Int) - (e.sa.toNat / 8 : Nat)|
      exec .rtoSample s = .next (({ s with tw := { s.tw with est := e } }).answered e.rto e.sa e.sv 0#32 0#32 0#32) ∧
      e.sa.toNat = sa + r - sa / 8 ∧ (e.sv.toNat : Int) = sv + err - (sv / 4 : Nat) ∧
      e.rto.toNat = max 200 (min 5000 (e.sa.toNat / 8 + e.sv.toNat))

/-! ### Ticks, the arbiter and the services -/

/-- Tier 2. R250: a tick counts every armed timer down by one and then arbitrates; a count c has run out exactly from the c-th tick on. -/
def Obligations.TickCountsDown : Prop :=
  (∀ s : State, ∃ tw : TxWindow,
    s.tick = ({ s with tw := tw }).arbitrate ∧
    tw.shared.armed = s.tw.shared.armed ∧
    tw.shared.rem.toNat = (if s.tw.shared.armed then s.tw.shared.rem.toNat - 1 else s.tw.shared.rem.toNat) ∧
    { tw with shared := s.tw.shared, slots := s.tw.slots } = s.tw ∧
    tw.slots.length = s.tw.slots.length ∧
    (∀ j : Nat, s.tw.slots[j]? = some none → tw.slots[j]? = some none) ∧
    (∀ (j : Nat) (t : TimerSlot), s.tw.slots[j]? = some (some t) →
      ∃ t', tw.slots[j]? = some (some t') ∧ t'.seq = t.seq ∧ t'.retries = t.retries ∧ t'.rem.toNat = t.rem.toNat - 1)) ∧
  ∀ (c : BitVec 24) (k : Nat), (countDown^[k] c = 0#24 ↔ c.toNat ≤ k)

/-- Tier 2. R251: a service is due exactly when a timer of the unit's mode has run out; while one is due and EVT has room the arbiter
performs it, appends its event and goes on, and otherwise it does nothing. So it only appends events, touches TW and EVT alone, and ends
with the FIFO full or nothing expired. -/
def Obligations.ArbiterServesUntilQuietOrFull : Prop :=
  (∀ (g : Bool) (rule : Config.SrSlide) (tw : TxWindow),
    (tw.cfg.mode = .off → tw.serveOldest g rule = none) ∧
    (tw.cfg.mode = .gbn → tw.serveOldest g rule =
      if tw.shared.armed = true ∧ tw.shared.rem = 0#24 then some tw.serveGbn else none) ∧
    (tw.cfg.mode = .conn → tw.serveOldest g rule =
      if tw.shared.armed = true ∧ tw.shared.rem = 0#24 then some tw.serveConn else none) ∧
    (tw.cfg.mode = .sr → ((tw.serveOldest g rule).isSome = true ↔ ∃ t ∈ tw.units, t.rem = 0#24))) ∧
  (∀ (s : State) (tw : TxWindow) (e : Event), s.evt.length < Config.evtDepth →
    s.tw.serveOldest Config.giveupSlides Config.srSlide = some (tw, e) →
    s.arbitrate = ({ s with tw := tw, evt := s.evt ++ [e] }).arbitrate) ∧
  (∀ s : State, NoExpiryWaits s → s.arbitrate = s) ∧
  ∀ s : State, NoExpiryWaits s.arbitrate ∧ (∃ new, s.arbitrate.evt = s.evt ++ new) ∧
    { s.arbitrate with tw := s.tw, evt := s.evt } = s ∧
    (s.evt.length ≤ Config.evtDepth → s.arbitrate.evt.length ≤ Config.evtDepth)

/-- Tier 2. R251: in SR the unit served is expired and no expired unit is older; one event, naming it or its give-up. -/
def Obligations.ArbiterServesOldestFirst : Prop :=
  ∀ (g : Bool) (rule : Config.SrSlide) (tw tw' : TxWindow) (e : Event), tw.cfg.mode = .sr →
    tw.serveOldest g rule = some (tw', e) →
    ∃ (j : Nat) (t : TimerSlot), tw.slots[j]? = some (some t) ∧ t.rem = 0#24 ∧ e.seq = t.seq ∧ (e.kind = .retx ∨ e.kind = .giveup) ∧
      (tw', e) = tw.serveSlot g rule j t ∧
      ∀ t' : TimerSlot, t' ∈ tw.units → t'.rem = 0#24 → (dist t'.seq tw.next).toNat ≤ (dist t.seq tw.next).toNat

/-- Tier 1. R252-R257: what each mode's expiry service does below its ceiling and at it, with the one event it emits. GIVEUP_SLIDES and
SR_SLIDE are arguments of the SR service; CONN counts its retransmissions up to 255 and is exhausted only where CONN_LIMIT bounds it. -/
def Obligations.ExpiryServices : Prop :=
  (∀ (g : Bool) (rule : Config.SrSlide) (tw : TxWindow) (j : Nat) (t : TimerSlot),
    (t.retries.toNat < tw.cfg.maxRetries.toNat → tw.serveSlot g rule j t =
      ({ tw with
          slots := tw.slots.set j (some { seq := t.seq, rem := tw.timeout, retries := t.retries + 1#8 }),
          retxCnt := tw.retxCnt + 1#32 },
        { kind := .retx, seq := t.seq, count := 1#16 })) ∧
    (tw.cfg.maxRetries.toNat ≤ t.retries.toNat →
      let freed : TxWindow := { tw with slots := tw.slots.set j none, giveupCnt := tw.giveupCnt + 1#32 }
      tw.serveSlot g rule j t =
        (if g = true ∧ t.seq = tw.base ∧ tw.base ≠ tw.next then freed.slide rule else freed,
          { kind := .giveup, seq := t.seq, count := 1#16 }))) ∧
  ∀ tw : TxWindow,
    (tw.retry.toNat < tw.cfg.maxRetries.toNat → tw.serveGbn =
      ({ tw with
          retry := tw.retry + 1#8, shared := { armed := tw.shared.armed, rem := tw.timeout },
          retxCnt := tw.retxCnt + dist tw.base tw.next },
        { kind := .retxRange, seq := tw.base, count := (dist tw.base tw.next).setWidth 16 })) ∧
    (tw.cfg.maxRetries.toNat ≤ tw.retry.toNat → tw.serveGbn =
      ({ tw with abort := true, shared := { armed := false, rem := 0#24 } },
        { kind := .abort, seq := tw.base, count := (dist tw.base tw.next).setWidth 16 })) ∧
    (tw.cfg.connLimit = false ∨ tw.retry.toNat < tw.cfg.maxRetries.toNat →
      ∃ r : BitVec 8, r.toNat = min (tw.retry.toNat + 1) 255 ∧ tw.serveConn =
        ({ tw with retry := r, shared := { armed := tw.shared.armed, rem := tw.est.rto.setWidth 24 }, retxCnt := tw.retxCnt + 1#32 },
          { kind := .retx, seq := tw.ptag, count := 1#16 })) ∧
    (tw.cfg.connLimit = true → tw.cfg.maxRetries.toNat ≤ tw.retry.toNat → tw.serveConn =
      ({ tw with shared := { armed := false, rem := 0#24 } }, { kind := .pexhaust, seq := tw.ptag, count := 1#16 }))

/-- Tier 2. R241, R240: while stopped, a tick emits nothing and changes no timer; a command that clears stopped is TW_INIT, and a step
that clears it is the completion of TW_INIT, an accepted TW_CFG write, a soft reset or a hardware reset. -/
def Obligations.NothingFiresWhileStopped : Prop :=
  (∀ s : State, TwInv s.tw → s.tw.stopped = true → s.tick = s) ∧
  (∀ (i : Instr) (s t : State), s.tw.stopped = true → exec i s = .next t → t.tw.stopped = false → ∃ r, i = .twInit r) ∧
  ∀ s t : State, s.tw.stopped = true → step s = .next t → t.tw.stopped = false →
    (∃ w r, s.pending = some w ∧ decode w = .ok (.twInit r) ∧ (s.trace = [] ∨ ∃ rest, s.trace = .engine :: rest)) ∨
    (∃ w rest, s.trace = .write .word 0x050#12 w :: rest ∧ s.pending = none) ∨
    (∃ w rest, s.trace = .write .word 0x010#12 w :: rest ∧ w.getLsbD 0 = true) ∨
    ∃ rest, s.trace = .hwReset :: rest

/-! ### The host port -/

/-- Tier 1. R88: the refused accesses set ACC_ERR and change nothing else; a refused read returns 0. -/
def Obligations.RefusedAccesses : Prop :=
  ∀ (s : State) (a : Nat) (w : Word),
    (a < 0x400 → s.hostRead .byte a = { s with accErr := true, rdata := 0#32 } ∧ s.hostWrite .byte a w = { s with accErr := true }) ∧
    (a % 4 ≠ 0 → s.hostRead .word a = { s with accErr := true, rdata := 0#32 } ∧ s.hostWrite .word a w = { s with accErr := true }) ∧
    (0x800 ≤ a → a < 0xC00 → ∀ size, s.hostWrite size a w = { s with accErr := true })

/-- Tier 2. R87, R89: a read changes nothing but what the port returns and, where it is refused, ACC_ERR; reserved addresses read 0 and
ignore writes; read-only registers ignore writes and write-only registers read 0. -/
def Obligations.ReadsHaveNoSideEffect : Prop :=
  (∀ (s : State) (size : AccessSize) (a : Nat), { s.hostRead size a with rdata := s.rdata, accErr := s.accErr } = s ∧
    ((s.hostRead size a).hostRead size a).rdata = (s.hostRead size a).rdata ∧
    ((s.hostRead size a).accErr = true ↔ s.accErr = true ∨ size = .byte ∧ a < 0x400 ∨ size = .word ∧ a % 4 ≠ 0)) ∧
  (∀ (s : State) (size : AccessSize) (a : Nat) (w : Word), 0xC00 ≤ a → (size = .word → a % 4 = 0) →
    s.hostRead size a = { s with rdata := 0#32 } ∧ s.hostWrite size a w = s) ∧
  (∀ (s : State) (a : Nat) (w : Word), a < 0x400 → a % 4 = 0 → (a ∈ [0x048, 0x04C, 0x088, 0x08C, 0x0AC] ∨ 0x0C0 ≤ a) →
    s.hostRead .word a = { s with rdata := 0#32 } ∧ s.hostWrite .word a w = s) ∧
  (∀ (s : State) (a : Nat) (w : Word),
    a ∈ [0x000, 0x004, 0x008, 0x00C, 0x030, 0x034, 0x038, 0x03C, 0x040, 0x044, 0x058, 0x05C, 0x060, 0x064, 0x068, 0x06C, 0x070, 0x074,
      0x078, 0x07C, 0x080, 0x084, 0x094, 0x098, 0x09C, 0x0A0, 0x0A4, 0x0A8, 0x0B0, 0x0B4, 0x0BC] → s.hostWrite .word a w = s) ∧
  (∀ s : State, ∀ a ∈ [0x010, 0x01C, 0x0B8], s.hostRead .word a = { s with rdata := 0#32 })

/-- Tier 2. R83, R84: a host read of IBUF or OBUF returns the bytes stored there and an accepted write of IBUF stores its bytes and nothing
else, 8-bit and 32-bit accesses agreeing by little-endian lanes. -/
def Obligations.ByteLanesAgree : Prop :=
  ∀ (s : State) (a k : Nat), a % 4 = 0 → k < 4 →
    (0x400 ≤ a → a < 0xC00 →
      (s.hostRead .byte (a + k)).rdata = (s.mem.byteAt (a + k)).setWidth 32 ∧
      (s.hostRead .byte (a + k)).rdata = ((s.hostRead .word a).rdata >>> (8 * k)) &&& 0xFF#32) ∧
    (0x400 ≤ a → a < 0x800 → s.pending = none → ∀ w : Word,
      (s.hostWrite .word a w).mem.byteAt (a + k) = (w >>> (8 * k)).setWidth 8 ∧
      (s.hostWrite .byte (a + k) w).mem.byteAt (a + k) = w.setWidth 8 ∧
      (∀ b, (b < a ∨ a + 4 ≤ b) → (s.hostWrite .word a w).mem.byteAt b = s.mem.byteAt b) ∧
      (∀ b, b ≠ a + k → (s.hostWrite .byte (a + k) w).mem.byteAt b = s.mem.byteAt b) ∧
      { s.hostWrite .word a w with mem := s.mem } = s ∧ { s.hostWrite .byte (a + k) w with mem := s.mem } = s)

/-- Tier 1. R352, R30: while a command is pending, operand and configuration writes are refused and a CMD write is dropped with CMD_OVR;
STATUS, IRQ_EN, CTRL and EVT_POP writes are accepted. -/
def Obligations.WritesWhileBusy : Prop :=
  ∀ (s : State) (c w : Word), s.pending = some c →
    (∀ a ∈ [0x020, 0x024, 0x028, 0x02C, 0x050, 0x054, 0x090], s.hostWrite .word a w = { s with accErr := true }) ∧
    (∀ size a, 0x400 ≤ a → a < 0x800 → (size = .word → a % 4 = 0) → s.hostWrite size a w = { s with accErr := true }) ∧
    s.hostWrite .word 0x01C w = { s with cmdOvr := true } ∧
    s.hostWrite .word 0x014 w =
      { s with cmdOvr := s.cmdOvr && !w.getLsbD 13, accErr := s.accErr && !w.getLsbD 16 } ∧
    s.hostWrite .word 0x018 w = { s with irqEn := w.extractLsb' 0 5 } ∧
    s.hostWrite .word 0x010 w = (if w.getLsbD 0 then s.softReset else s) ∧
    s.hostWrite .word 0x0B8 w = s.popEvent

/-- Tier 1. R23, R29, R30, R34: what a register write stores while nothing is pending. R28: the two bits a STATUS write clears. R31-R33, R42, R43: a TW_CFG write stores its fields
with N clamped into 1..WIN_MAX and resets TW, and an RB_CFG write does the same for RB. R46: EVT_POP removes the head and arbitrates;
on an empty FIFO it does nothing (log 14). -/
def Obligations.RegisterWrites : Prop :=
  (∀ (s : State) (w : Word), s.pending = none →
    s.hostWrite .word 0x020 w = { s with args := { s.args with arg0 := w } } ∧
    s.hostWrite .word 0x024 w = { s with args := { s.args with arg1 := w } } ∧
    s.hostWrite .word 0x028 w = { s with args := { s.args with arg2 := w } } ∧
    s.hostWrite .word 0x02C w = { s with args := { s.args with arg3 := w } } ∧
    s.hostWrite .word 0x018 w = { s with irqEn := w.extractLsb' 0 5 } ∧
    s.hostWrite .word 0x01C w = { s with pending := some w } ∧
    s.hostWrite .word 0x054 w = { s with tw := { s.tw with
      timeout := if w.extractLsb' 0 24 = 0#24 then 1#24 else w.extractLsb' 0 24 } } ∧
    ∃ n : BitVec 8, n.toNat = max 1 (min (w.extractLsb' 8 8).toNat Config.winMax) ∧
      ∀ m : Mode, m.bits = w.extractLsb' 0 2 →
        s.hostWrite .word 0x050 w = { s with tw := { s.tw with
          cfg := { mode := m, n := n, maxRetries := w.extractLsb' 16 8, connLimit := w.getLsbD 24 },
          base := 0#32, next := 0#32, shared := { armed := false, rem := 0#24 }, slots := List.replicate s.tw.slots.length none,
          retry := 0#8, ptag := 0#32, abort := false, stopped := false, est := { sa := 8000#32, sv := 0#32, rto := 1000#32 } } } ∧
        s.hostWrite .word 0x090 w = { s with rb :=
          { mode := m, n := n, exp := 0#32, slots := List.replicate s.rb.slots.length none } }) ∧
  ∀ (s : State) (w : Word),
    s.hostWrite .word 0x014 w =
      { s with cmdOvr := s.cmdOvr && !w.getLsbD 13, accErr := s.accErr && !w.getLsbD 16 } ∧
    (s.evt = [] → s.hostWrite .word 0x0B8 w = s) ∧
    (∀ e r, s.evt = e :: r → s.hostWrite .word 0x0B8 w = ({ s with evt := r }).arbitrate)

/-- Tier 2. R27, R310: every bit of STATUS, and irq is high exactly while an enabled source's STATUS condition holds. -/
def Obligations.StatusBitsAndIrq : Prop :=
  ∀ s : State,
    s.status.getLsbD 0 = s.pending.isSome ∧ s.status.getLsbD 1 = s.err ∧ s.status.getLsbD 2 = false ∧ s.status.getLsbD 3 = false ∧
    s.status.extractLsb' 4 4 = s.errcode ∧ s.status.getLsbD 8 = s.tw.abort ∧ s.status.getLsbD 9 = decide (s.evt ≠ []) ∧
    s.status.getLsbD 10 = decide (s.dlv ≠ []) ∧ s.status.getLsbD 11 = s.latch.isSome ∧ s.status.getLsbD 12 = s.tw.stopped ∧
    s.status.getLsbD 13 = s.cmdOvr ∧ s.status.getLsbD 14 = decide (s.evt.length = 64) ∧
    s.status.getLsbD 15 = decide (s.dlv.length = 64) ∧ s.status.getLsbD 16 = s.accErr ∧
    (∀ i, 17 ≤ i → s.status.getLsbD i = false) ∧
    (s.irq = true ↔
      (s.irqEn.getLsbD 0 = true ∧ s.status.getLsbD 9 = true) ∨ (s.irqEn.getLsbD 1 = true ∧ s.status.getLsbD 10 = true) ∨
      (s.irqEn.getLsbD 2 = true ∧ s.status.getLsbD 8 = true) ∨ (s.irqEn.getLsbD 3 = true ∧ s.status.getLsbD 1 = true) ∨
      (s.irqEn.getLsbD 4 = true ∧ (s.status.getLsbD 13 = true ∨ s.status.getLsbD 16 = true)))

/-- Tier 1. The register map of 10_state.md: which register a read at each offset returns; R21, R22: the constants, PARAM0-PARAM2 of the
default build (log 5); and R23, R25, R29, R31, R34, R35, R36, R39, R40,
R41, R42, R44: what the stored ones read as, with the codes of MODE, the reserved bits of the configuration registers at 0. -/
def Obligations.StoredRegistersRead : Prop :=
  ∀ s : State,
    s.hostRead .word 0x000 = { s with rdata := s.readReg .id } ∧ s.hostRead .word 0x004 = { s with rdata := s.readReg .param0 } ∧
    s.hostRead .word 0x008 = { s with rdata := s.readReg .param1 } ∧ s.hostRead .word 0x00C = { s with rdata := s.readReg .param2 } ∧
    s.hostRead .word 0x014 = { s with rdata := s.readReg .status } ∧ s.hostRead .word 0x018 = { s with rdata := s.readReg .irqEn } ∧
    s.hostRead .word 0x020 = { s with rdata := s.readReg .arg0 } ∧ s.hostRead .word 0x024 = { s with rdata := s.readReg .arg1 } ∧
    s.hostRead .word 0x028 = { s with rdata := s.readReg .arg2 } ∧ s.hostRead .word 0x02C = { s with rdata := s.readReg .arg3 } ∧
    s.hostRead .word 0x030 = { s with rdata := s.readReg .res0 } ∧ s.hostRead .word 0x034 = { s with rdata := s.readReg .res1 } ∧
    s.hostRead .word 0x038 = { s with rdata := s.readReg .res2 } ∧ s.hostRead .word 0x03C = { s with rdata := s.readReg .res3 } ∧
    s.hostRead .word 0x040 = { s with rdata := s.readReg .res4 } ∧ s.hostRead .word 0x044 = { s with rdata := s.readReg .res5 } ∧
    s.hostRead .word 0x050 = { s with rdata := s.readReg .twCfg } ∧ s.hostRead .word 0x054 = { s with rdata := s.readReg .twTimeout } ∧
    s.hostRead .word 0x058 = { s with rdata := s.readReg .twBase } ∧ s.hostRead .word 0x05C = { s with rdata := s.readReg .twNext } ∧
    s.hostRead .word 0x060 = { s with rdata := s.readReg .twRetry } ∧ s.hostRead .word 0x064 = { s with rdata := s.readReg .twAckmap } ∧
    s.hostRead .word 0x068 = { s with rdata := s.readReg .twTstat } ∧ s.hostRead .word 0x06C = { s with rdata := s.readReg .twPtag } ∧
    s.hostRead .word 0x070 = { s with rdata := s.readReg .rto } ∧ s.hostRead .word 0x074 = { s with rdata := s.readReg .srtt8 } ∧
    s.hostRead .word 0x078 = { s with rdata := s.readReg .rttvar4 } ∧ s.hostRead .word 0x07C = { s with rdata := s.readReg .giveupCnt } ∧
    s.hostRead .word 0x080 = { s with rdata := s.readReg .retxCnt } ∧ s.hostRead .word 0x084 = { s with rdata := s.readReg .twSrem } ∧
    s.hostRead .word 0x090 = { s with rdata := s.readReg .rbCfg } ∧ s.hostRead .word 0x094 = { s with rdata := s.readReg .rbExp } ∧
    s.hostRead .word 0x098 = { s with rdata := s.readReg .rbOcc } ∧ s.hostRead .word 0x09C = { s with rdata := s.readReg .rbMap } ∧
    s.hostRead .word 0x0A0 = { s with rdata := s.readReg .dlvCount } ∧ s.hostRead .word 0x0A4 = { s with rdata := s.readReg .dlvHlen } ∧
    s.hostRead .word 0x0A8 = { s with rdata := s.readReg .dlvHseq } ∧ s.hostRead .word 0x0B0 = { s with rdata := s.readReg .evtHead } ∧
    s.hostRead .word 0x0B4 = { s with rdata := s.readReg .evtSeq } ∧ s.hostRead .word 0x0BC = { s with rdata := s.readReg .evtCount } ∧
    s.readReg .id = 0x45464332#32 ∧ s.readReg .param0 = 0x00204020#32 ∧ s.readReg .param1 = 0x404003EB#32 ∧
    s.readReg .param2 = 0x138800C8#32 ∧
    s.readReg .status = s.status ∧ s.readReg .irqEn = s.irqEn.setWidth 32 ∧
    s.readReg .arg0 = s.args.arg0 ∧ s.readReg .arg1 = s.args.arg1 ∧ s.readReg .arg2 = s.args.arg2 ∧ s.readReg .arg3 = s.args.arg3 ∧
    s.readReg .res0 = s.res.r0 ∧ s.readReg .res1 = s.res.r1 ∧ s.readReg .res2 = s.res.r2 ∧ s.readReg .res3 = s.res.r3 ∧
    s.readReg .res4 = s.res.r4 ∧ s.readReg .res5 = s.res.r5 ∧
    s.readReg .twTimeout = s.tw.timeout.setWidth 32 ∧ s.readReg .twBase = s.tw.base ∧ s.readReg .twNext = s.tw.next ∧
    s.readReg .twRetry = s.tw.retry.setWidth 32 ∧ s.readReg .twPtag = s.tw.ptag ∧ s.readReg .rto = s.tw.est.rto ∧
    s.readReg .srtt8 = s.tw.est.sa ∧ s.readReg .rttvar4 = s.tw.est.sv ∧ s.readReg .giveupCnt = s.tw.giveupCnt ∧
    s.readReg .retxCnt = s.tw.retxCnt ∧ s.readReg .rbExp = s.rb.exp ∧
    Mode.bits .off = 0#2 ∧ Mode.bits .gbn = 1#2 ∧ Mode.bits .sr = 2#2 ∧ Mode.bits .conn = 3#2 ∧
    (s.readReg .twCfg).extractLsb' 0 2 = s.tw.cfg.mode.bits ∧ (s.readReg .twCfg).extractLsb' 2 6 = 0#6 ∧
    (s.readReg .twCfg).extractLsb' 8 8 = s.tw.cfg.n ∧ (s.readReg .twCfg).extractLsb' 16 8 = s.tw.cfg.maxRetries ∧
    (s.readReg .twCfg).getLsbD 24 = s.tw.cfg.connLimit ∧ (s.readReg .twCfg).extractLsb' 25 7 = 0#7 ∧
    (s.readReg .rbCfg).extractLsb' 0 2 = s.rb.mode.bits ∧ (s.readReg .rbCfg).extractLsb' 2 6 = 0#6 ∧
    (s.readReg .rbCfg).extractLsb' 8 8 = s.rb.n ∧ (s.readReg .rbCfg).extractLsb' 16 16 = 0#16

/-- Tier 2. R37, R44: the bits of TW_ACKMAP and of RB_MAP. R38, R45, R46: the counts, the timer bits and the queue heads the host reads, the
reserved bits at 0, and the codes of the event types (R52). -/
def Obligations.DerivedRegisters : Prop :=
  (EventKind.bits .retx = 1#4 ∧ EventKind.bits .retxRange = 2#4 ∧ EventKind.bits .giveup = 3#4 ∧ EventKind.bits .abort = 4#4 ∧
    EventKind.bits .pexhaust = 5#4) ∧
  (∀ s : State, (s.readReg .twTstat).extractLsb' 2 6 = 0#6 ∧ (s.readReg .twTstat).extractLsb' 24 8 = 0#8 ∧
    (s.readReg .evtHead).extractLsb' 4 12 = 0#12) ∧
  (∀ (s : State) (i : Nat), i < 32 →
    ((s.readReg .twAckmap).getLsbD i = true ↔
      s.tw.cfg.mode = .sr ∧ i < (dist s.tw.base s.tw.next).toNat ∧ s.tw.acked (s.tw.base + BitVec.ofNat 32 i) = true) ∧
    ((s.readReg .rbMap).getLsbD i = true ↔
      s.rb.mode = .sr ∧ ∃ r ∈ s.rb.units, r.seq = s.rb.exp + BitVec.ofNat 32 i)) ∧
  (∀ s : State, TwInv s.tw →
    (s.readReg .twTstat).getLsbD 0 = s.tw.shared.armed ∧
    (s.readReg .twTstat).getLsbD 1 = (s.tw.shared.armed && decide (s.tw.shared.rem = 0#24)) ∧
    ((s.readReg .twTstat).extractLsb' 8 8).toNat = s.tw.units.length ∧
    ((s.readReg .twTstat).extractLsb' 16 8).toNat = (s.tw.units.filter fun t => decide (t.rem = 0#24)).length ∧
    s.readReg .twSrem = s.tw.shared.rem.setWidth 32) ∧
  (∀ s : State, QueueInv s →
    (s.readReg .dlvCount).toNat = s.dlv.length ∧ (s.readReg .evtCount).toNat = s.evt.length ∧
    (s.dlv = [] → s.readReg .dlvHlen = 0#32 ∧ s.readReg .dlvHseq = 0#32) ∧
    (∀ e r, s.dlv = e :: r → (s.readReg .dlvHlen).toNat = e.payload.length ∧ s.readReg .dlvHseq = e.seq) ∧
    (s.evt = [] → s.readReg .evtHead = 0#32 ∧ s.readReg .evtSeq = 0#32) ∧
    (∀ e r, s.evt = e :: r → (s.readReg .evtHead).extractLsb' 0 4 = e.kind.bits ∧
      (s.readReg .evtHead).extractLsb' 16 16 = e.count ∧ s.readReg .evtSeq = e.seq)) ∧
  ∀ s : State, RbInv s.rb → (s.readReg .rbOcc).toNat = s.rb.units.length

/-- Tier 1. R343: what the host reads from every register after reset (95_test_vectors.md §7, Z-1 to Z-7). R341, R340: soft reset keeps
the buffers and nothing else of the block; hardware reset leaves the buffers at a fresh free value (log 3, 11). -/
def Obligations.ResetsRestoreEverything : Prop :=
  (∀ r : Reg, State.reset.readReg r =
    match r with
    | .id => 0x45464332#32
    | .param0 => 0x00204020#32
    | .param1 => 0x404003EB#32
    | .param2 => 0x138800C8#32
    | .twCfg => 0x00000100#32
    | .rbCfg => 0x00000100#32
    | .twTimeout => 0x000003E8#32
    | .rto => 0x000003E8#32
    | .srtt8 => 0x00001F40#32
    | _ => 0#32) ∧
  State.reset.irq = false ∧
  ∀ s : State,
    (∀ w : Word, w.getLsbD 0 = true →
      s.hostWrite .word 0x010 w = { State.reset with mem := s.mem, rdata := s.rdata, trace := s.trace }) ∧
    (∀ w : Word, w.getLsbD 0 = false → s.hostWrite .word 0x010 w = s) ∧
    s.hwReset = { State.reset with mem := { powerOns := s.mem.powerOns + 1, cells := [] }, rdata := s.rdata, trace := s.trace }

/-! ### Frames -/

/-- Tier 2. The frame of the transmit-window commands (R220-R243): outside TW only RES, ERR and ERRCODE may change, every byte of both
buffers reads as before; inside TW the configuration, TIMEOUT and the two counters stay, and each command leaves the rest its rule does not name. -/
def Obligations.TxWindowFrame : Prop :=
  ∀ (i : Instr) (s t : State), exec i s = .next t →
    (i = .twAdmit ∨ i = .twAck ∨ i = .twArm ∨ i = .twCancel ∨ i = .twStop ∨ i = .rtoSample ∨ ∃ r, i = .twInit r) →
    (∀ a, t.mem.byteAt a = s.mem.byteAt a) ∧
    { t with tw := s.tw, res := s.res, err := s.err, errcode := s.errcode } = s ∧
    t.tw.cfg = s.tw.cfg ∧ t.tw.timeout = s.tw.timeout ∧ t.tw.giveupCnt = s.tw.giveupCnt ∧ t.tw.retxCnt = s.tw.retxCnt ∧
    (i ≠ .rtoSample → i ≠ .twInit true → t.tw.est = s.tw.est) ∧
    ((∀ r, i ≠ .twInit r) → t.tw.abort = s.tw.abort ∧ (i ≠ .twStop → t.tw.stopped = s.tw.stopped)) ∧
    (i = .twArm ∨ i = .twCancel ∨ i = .twStop ∨ i = .rtoSample → t.tw.base = s.tw.base ∧ t.tw.next = s.tw.next) ∧
    (i = .twArm ∨ i = .twCancel ∨ i = .rtoSample → t.tw.slots = s.tw.slots) ∧
    (i = .twAdmit → t.tw.base = s.tw.base ∧ t.tw.retry = s.tw.retry ∧ t.tw.ptag = s.tw.ptag) ∧
    (i = .twAck → t.tw.next = s.tw.next ∧ t.tw.ptag = s.tw.ptag) ∧
    (i = .twCancel ∨ i = .twStop ∨ i = .rtoSample → t.tw.retry = s.tw.retry ∧ t.tw.ptag = s.tw.ptag) ∧
    (i = .rtoSample → t.tw.shared = s.tw.shared)

/-- Tier 2. The frame of the codec commands and of DLV_POP (R146-R158, R202): no unit but the one the rule names changes, and every byte
outside the output in OBUF reads as before. -/
def Obligations.BufferWritingFrame : Prop :=
  ∀ (i : Instr) (s t : State) (len : Nat), exec i s = .next t →
    (i = .encFrame len ∨ i = .encSeg len ∨ i = .decFrame len ∨ i = .decSeg len ∨ i = .dlvPop) →
    (∀ a, a < 0x800 ∨ 0x800 + outputLength i s ≤ a → t.mem.byteAt a = s.mem.byteAt a) ∧
    { t with mem := s.mem, latch := s.latch, dlv := s.dlv, res := s.res, err := s.err, errcode := s.errcode } = s ∧
    (i = .encFrame len ∨ i = .encSeg len ∨ i = .dlvPop → t.latch = s.latch) ∧
    (i ≠ .dlvPop → t.dlv = s.dlv)

/-- Tier 2. The frame of NOP, CLR, RB_PUSH and RB_SETEXP (R280, R281, R180, R200): every byte of both buffers reads as before, TW changes
only in the two counters CLR names, and no unit changes but those the rule names. -/
def Obligations.BufferKeepingFrame : Prop :=
  ∀ (i : Instr) (s t : State) (l d e c : Bool), exec i s = .next t →
    (i = .nop ∨ i = .clr l d e c ∨ i = .rbPush ∨ i = .rbSetexp) →
    (∀ a, t.mem.byteAt a = s.mem.byteAt a) ∧
    { t with
        latch := s.latch, dlv := s.dlv, evt := s.evt, rb := s.rb, res := s.res, err := s.err, errcode := s.errcode,
        tw := { t.tw with giveupCnt := s.tw.giveupCnt, retxCnt := s.tw.retxCnt } } = s ∧
    (i ≠ .clr l d e c → t.tw = s.tw ∧ t.evt = s.evt) ∧
    (i = .nop ∨ i = .clr l d e c → t.rb = s.rb) ∧
    (i = .nop ∨ i = .rbSetexp → t.latch = s.latch ∧ t.dlv = s.dlv)

/-! ### Invariants -/

/-- Tier 1. Every invariant holds after reset (R343). -/
def Obligations.InvariantsHoldAtReset : Prop :=
  TwInv State.reset.tw ∧ RbInv State.reset.rb ∧ QueueInv State.reset ∧ LatchInv State.reset ∧ MemInv State.reset ∧
    ErrInv State.reset ∧ NoExpiryWaits State.reset

/-- Tier 3. 10_state.md R55 and 42_txwindow_timers.md R241, R244, R255, R259: every step keeps the invariant of TW, from every state that has it. -/
def Obligations.StepKeepsTwInv : Prop :=
  ∀ s t : State, TwInv s.tw → step s = .next t → TwInv t.tw

/-- Tier 3. 10_state.md R56: every step keeps the invariant of RB, from every state that has it. -/
def Obligations.StepKeepsRbInv : Prop :=
  ∀ s t : State, RbInv s.rb → step s = .next t → RbInv t.rb

/-- Tier 3. 42_txwindow_timers.md R251, R258: after every step an expired timer waits only if EVT is full. -/
def Obligations.StepLeavesNoExpiryWaiting : Prop :=
  ∀ s t : State, TwInv s.tw → NoExpiryWaits s → step s = .next t → NoExpiryWaits t

/-- Tier 2. 10_state.md R51, R52, R47, 60_exceptions.md R300: every step keeps the bounds of DLV, EVT and the latch, and ERR and ERRCODE in agreement. -/
def Obligations.StepKeepsBounds : Prop :=
  ∀ s t : State, RbInv s.rb → QueueInv s → LatchInv s → ErrInv s → step s = .next t → QueueInv t ∧ LatchInv t ∧ ErrInv t

/-- Tier 2. Every step keeps the buffers in canonical form, and inside IBUF and OBUF (20_memory.md R86), when no payload waiting in DLV is
longer than MAX_PAYLOAD. The canonical form, and one memory for both buffers, are the model's own representation (log 3, log 18). -/
def Obligations.StepKeepsMemoryForm : Prop :=
  ∀ s t : State, QueueInv s → MemInv s → step s = .next t → MemInv t

/-- Tier 2. R92: before a completion RES, OBUF, the latch, DLV and RB hold their pre-command values; a tick and a host access other than a
configuration write or a soft reset change none of them. -/
def Obligations.OnlyCompletionsPublishResults : Prop :=
  ∀ (s t : State) (x : Stimulus) (rest : List Stimulus), s.trace = x :: rest → step s = .next t →
    x ≠ .engine → x ≠ .hwReset → (∀ size w, x ≠ .write size 0x010#12 w) →
    t.res = s.res ∧ t.latch = s.latch ∧ t.dlv = s.dlv ∧ t.err = s.err ∧ t.errcode = s.errcode ∧
    (∀ a, 0x800 ≤ a → t.mem.byteAt a = s.mem.byteAt a) ∧ ((∀ size w, x ≠ .write size 0x090#12 w) → t.rb = s.rb)
end

