-- ==== Sys2Proof/Laws/Bits.lean ====
section
/-! SUPPORT. What the helpers of Machine/Bits.lean compute: sequence distances, big-endian fields, the WARL rules and the map registers. -/

namespace Sys2Proof.Machine

/-! ### Distances -/

@[simp] theorem dist_self (a : Word) : dist a a = 0#32 := by simp [dist]

theorem dist_eq_zero (a b : Word) : dist a b = 0#32 ↔ a = b := by
  constructor
  · intro h; unfold dist at h; bv_omega
  · rintro rfl; simp

theorem dist_toNat (a b : Word) : (dist a b).toNat = (2 ^ 32 - a.toNat + b.toNat) % 2 ^ 32 := by
  simp [dist, BitVec.toNat_sub]

/-- The sequence at its own distance. -/
theorem add_dist (a b : Word) : a + dist a b = b := by unfold dist; bv_omega

theorem dist_add_left (a : Word) (i : Nat) (h : i < 2 ^ 32) : (dist a (a + BitVec.ofNat 32 i)).toNat = i := by
  unfold dist
  rw [show a + BitVec.ofNat 32 i - a = BitVec.ofNat 32 i by bv_omega]
  simpa using Nat.mod_eq_of_lt h

/-- The place of a sequence is its base and its distance. -/
theorem eq_add_dist_toNat (a b : Word) : b = a + BitVec.ofNat 32 (dist a b).toNat := by
  simp [add_dist]

theorem dist_succ (a b : Word) : dist a (b + 1#32) = dist a b + 1#32 := by unfold dist; bv_omega

/-- One more unit, where that does not wrap. -/
theorem dist_succ_toNat (a b : Word) (h : (dist a b).toNat + 1 < 2 ^ 32) : (dist a (b + 1#32)).toNat = (dist a b).toNat + 1 := by
  rw [dist_succ]; bv_omega

/-- The distance left after the base has moved past a sequence of the window. -/
theorem dist_from_after (a b k : Word) (h : (dist a k).toNat < (dist a b).toNat) :
    (dist (k + 1#32) b).toNat = (dist a b).toNat - ((dist a k).toNat + 1) := by
  unfold dist at *; bv_omega

/-! ### Big-endian fields -/

@[simp] theorem be16_length (x : Half) : (be16 x).length = 2 := rfl

@[simp] theorem be32_length (x : Word) : (be32 x).length = 4 := rfl

@[simp] theorem lanes_length (x : Word) : (lanes x).length = 4 := rfl

/-- A field read back from its bytes. -/
theorem be16_join (x : Half) : x.extractLsb' 8 8 ++ x.extractLsb' 0 8 = x := by
  rw [BitVec.extractLsb'_append_extractLsb'_eq_extractLsb' (by decide)]; simp

/-- A field read back from its bytes. -/
theorem be32_join (x : Word) :
    x.extractLsb' 24 8 ++ (x.extractLsb' 16 8 ++ (x.extractLsb' 8 8 ++ x.extractLsb' 0 8)) = x := by
  rw [BitVec.extractLsb'_append_extractLsb'_eq_extractLsb' (by decide),
    BitVec.extractLsb'_append_extractLsb'_eq_extractLsb' (by decide),
    BitVec.extractLsb'_append_extractLsb'_eq_extractLsb' (by decide)]
  simp

theorem rdBe32_be32 (x : Word) (r : List Byte) : rdBe32 (be32 x ++ r) 0 = x := be32_join x

theorem rdBe16_be16 (x : Half) (r : List Byte) : rdBe16 (be16 x ++ r) 0 = x := be16_join x

/-- A byte of a buffer read is the byte at its place. -/
theorem byteOf_bytes (m : Memory) (a n i : Nat) (h : i < n) : byteOf (m.bytes a n) i = m.byteAt (a + i) := by
  simp [byteOf, Memory.bytes, h]

/-! ### Packed results -/

/-- Two half words side by side. -/
theorem half_append (a b : Half) : a ++ b = (b.setWidth 32 ||| (a.setWidth 32 <<< 16)) := by
  apply BitVec.eq_of_getLsbD_eq; intro i hi
  rw [BitVec.getLsbD_append, BitVec.getLsbD_or, BitVec.getLsbD_shiftLeft, BitVec.getLsbD_setWidth, BitVec.getLsbD_setWidth]
  by_cases h : i < 16
  · simp [h, show i < 32 by omega]
  · simp [h, show i < 32 by omega, show i - 16 < 32 by omega, BitVec.getLsbD_of_ge b i (by omega)]

/-- A half word above a byte. -/
theorem half_byte_append (a : Half) (b : Byte) : (a ++ b).setWidth 32 = (b.setWidth 32 ||| (a.setWidth 32 <<< 8)) := by
  apply BitVec.eq_of_getLsbD_eq; intro i hi
  rw [BitVec.getLsbD_setWidth, BitVec.getLsbD_append, BitVec.getLsbD_or, BitVec.getLsbD_shiftLeft, BitVec.getLsbD_setWidth,
    BitVec.getLsbD_setWidth]
  by_cases h : i < 8
  · simp [h, hi]
  · simp [h, hi, show i - 8 < 32 by omega, BitVec.getLsbD_of_ge b i (by omega)]

/-- A count that fits 16 bits, widened. -/
theorem ofNat16_setWidth (n : Nat) (h : n < 65536) : (BitVec.ofNat 16 n).setWidth 32 = BitVec.ofNat 32 n := by
  apply BitVec.eq_of_toNat_eq; simp only [BitVec.toNat_setWidth, BitVec.toNat_ofNat]; omega

/-! ### Map registers -/

theorem bitmapNat_lt (f : Nat → Bool) (n : Nat) : bitmapNat f n < 2 ^ n := by
  induction n with
  | zero => simp [bitmapNat]
  | succ n ih => simp only [bitmapNat]; rw [Nat.pow_succ]; split <;> omega

theorem bitmapNat_testBit (f : Nat → Bool) (n i : Nat) (h : i < n) : (bitmapNat f n).testBit i = f i := by
  induction n with
  | zero => omega
  | succ n ih =>
    have hlt := bitmapNat_lt f n
    simp only [bitmapNat]
    by_cases hi : i = n
    · subst hi
      by_cases hf : f i = true
      · rw [if_pos hf, Nat.add_comm, Nat.testBit_two_pow_add_eq, hf, Nat.testBit_lt_two_pow hlt]; rfl
      · rw [if_neg hf, Nat.add_zero, Nat.testBit_lt_two_pow hlt]; simpa using hf
    · by_cases hf : f n = true
      · rw [if_pos hf, Nat.add_comm, Nat.testBit_two_pow_add_gt (by omega), ih (by omega)]
      · rw [if_neg hf, Nat.add_zero, ih (by omega)]

/-- Bit i of a map register. -/
theorem bitmap_getLsbD (f : Nat → Bool) (i : Nat) (h : i < 32) : (bitmap f).getLsbD i = f i := by
  rw [bitmap, BitVec.getLsbD_ofNat, bitmapNat_testBit f 32 i h]; simp [h]

/-! ### Numbers -/

theorem warlN_toNat (v : BitVec 8) : (warlN v).toNat = max 1 (min v.toNat Config.winMax) := by
  unfold warlN
  split
  · subst_vars; decide
  · rename_i h
    have : v.toNat ≠ 0 := fun e => h (BitVec.eq_of_toNat_eq (by simpa using e))
    simp only [Config.winMax]
    split
    · simp only [BitVec.toNat_ofNat]; omega
    · omega

theorem warlTimeout_ne_zero (v : BitVec 24) : warlTimeout v ≠ 0#24 := by
  unfold warlTimeout; split
  · decide
  · assumption

theorem satInc_toNat (v : BitVec 8) : (satInc v).toNat = min (v.toNat + 1) 255 := by
  unfold satInc; split
  · subst_vars; decide
  · bv_omega

theorem clampRto_eq (v : Nat) : clampRto v = max 200 (min 5000 v) := by
  simp only [clampRto, clamp, Config.rtoMin, Config.rtoMax]; split
  · omega
  · split <;> omega

theorem countDown_toNat (r : BitVec 24) : (countDown r).toNat = r.toNat - 1 := by
  unfold countDown; split
  · subst_vars; rfl
  · bv_omega

@[simp] theorem Mode.ofBits_bits (m : Mode) : Mode.ofBits m.bits = m := by cases m <;> rfl

end Sys2Proof.Machine
end

