-- ==== Sys2Proof/Laws/Pool.lean ====
section
/-! SUPPORT. The slot pools of TW and RB as lists: which slots are valid, the lowest free slot, filling and freeing a slot, and finding
one by its sequence. -/

namespace Sys2Proof.Machine

variable {α : Type}

/-! ### The valid slots -/

theorem mem_units (l : List (Option α)) (x : α) : x ∈ l.reduceOption ↔ some x ∈ l := by
  simp [List.reduceOption_mem_iff]

theorem countP_isSome (l : List (Option α)) : l.countP Option.isSome = l.reduceOption.length := by
  induction l with
  | nil => rfl
  | cons o r ih => cases o <;> simp [ih]

@[simp] theorem units_replicate (n : Nat) : (List.replicate n (none : Option α)).reduceOption = [] := by
  induction n with
  | zero => rfl
  | succ n ih => simp [List.replicate_succ]

theorem map_none (l : List (Option α)) : (l.map fun _ => (none : Option α)) = List.replicate l.length none := by
  simp

theorem units_length_le (l : List (Option α)) : l.reduceOption.length ≤ l.length := List.reduceOption_length_le l

/-- A valid slot, by its index. -/
theorem mem_units_iff_getElem? (l : List (Option α)) (x : α) : x ∈ l.reduceOption ↔ ∃ j : Nat, l[j]? = some (some x) := by
  rw [mem_units, List.mem_iff_getElem?]

/-! ### The lowest free slot -/

theorem firstFree_eq_some (l : List (Option α)) (j : Nat) : firstFree l = some j ↔ LowestFree l j := by
  induction l generalizing j with
  | nil => simp [firstFree, LowestFree]
  | cons o r ih =>
    cases o with
    | none =>
      simp only [firstFree, Option.some.injEq]
      constructor
      · rintro rfl; exact ⟨rfl, by intro k hk; omega⟩
      · rintro ⟨_, h⟩
        cases j with
        | zero => rfl
        | succ j => exact absurd rfl (h 0 (by omega))
    | some x =>
      simp only [firstFree, Option.map_eq_some_iff]
      constructor
      · rintro ⟨i, hi, rfl⟩
        have := (ih i).mp hi
        refine ⟨by simpa using this.1, fun k hk => ?_⟩
        cases k with
        | zero => simp
        | succ k => simpa using this.2 k (by omega)
      · rintro ⟨h1, h2⟩
        cases j with
        | zero => simp at h1
        | succ j =>
          exact ⟨j, (ih j).mpr ⟨by simpa using h1, fun k hk => by simpa using h2 (k + 1) (by omega)⟩, rfl⟩

theorem firstFree_eq_none (l : List (Option α)) : firstFree l = none ↔ ∀ j : Nat, l[j]? ≠ some none := by
  induction l with
  | nil => simp [firstFree]
  | cons o r ih =>
    cases o with
    | none =>
      simp only [firstFree, reduceCtorEq, false_iff]
      intro h; exact h 0 rfl
    | some x =>
      simp only [firstFree, Option.map_eq_none_iff, ih]
      constructor
      · intro h j
        cases j with
        | zero => simp
        | succ j => simpa using h j
      · intro h j; simpa using h (j + 1)

/-- With fewer valid slots than slots, one is free. -/
theorem firstFree_isSome (l : List (Option α)) (h : l.reduceOption.length < l.length) : ∃ j, firstFree l = some j := by
  cases hf : firstFree l with
  | some j => exact ⟨j, rfl⟩
  | none =>
    have hn := (firstFree_eq_none l).mp hf
    have : l.reduceOption.length = l.length := by
      rw [← countP_isSome, List.countP_eq_length]
      intro o ho
      obtain ⟨j, hj⟩ := List.mem_iff_getElem?.mp ho
      cases o with
      | none => exact absurd hj (hn j)
      | some x => rfl
    omega

/-! ### Filling and freeing a slot by its index -/

/-- A free slot filled: the new unit is the only one added. -/
theorem units_set_some_perm (l : List (Option α)) (j : Nat) (x : α) (h : l[j]? = some none) :
    ((l.set j (some x)).reduceOption).Perm (x :: l.reduceOption) := by
  induction l generalizing j with
  | nil => simp at h
  | cons o r ih =>
    cases j with
    | zero =>
      simp only [List.getElem?_cons_zero, Option.some.injEq] at h
      subst h; simp
    | succ j =>
      simp only [List.getElem?_cons_succ] at h
      have := ih j h
      cases o with
      | none => simpa using this
      | some y => simpa using (this.cons y).trans (List.Perm.swap x y _)

/-- A valid slot freed: its unit is the only one that goes. -/
theorem units_set_none_perm (l : List (Option α)) (j : Nat) (x : α) (h : l[j]? = some (some x)) :
    (l.reduceOption).Perm (x :: (l.set j none).reduceOption) := by
  induction l generalizing j with
  | nil => simp at h
  | cons o r ih =>
    cases j with
    | zero =>
      simp only [List.getElem?_cons_zero, Option.some.injEq] at h
      subst h; simp
    | succ j =>
      simp only [List.getElem?_cons_succ] at h
      have := ih j h
      cases o with
      | none => simpa using this
      | some y => simpa using (this.cons y).trans (List.Perm.swap x y _)

/-- A valid slot rewritten: one unit takes the other's place. -/
theorem units_set_replace_perm (l : List (Option α)) (j : Nat) (x y : α) (h : l[j]? = some (some x)) :
    ∃ rest, (l.reduceOption).Perm (x :: rest) ∧ ((l.set j (some y)).reduceOption).Perm (y :: rest) := by
  refine ⟨_, units_set_none_perm l j x h, ?_⟩
  have hj : j < l.length := by
    by_contra hc; rw [List.getElem?_eq_none (by omega)] at h; simp at h
  have := units_set_some_perm (l.set j none) j y (by simp [hj])
  simpa [List.set_set] using this

/-- Slots kept by a test, valid slots filtered. -/
theorem units_map_filter (l : List (Option α)) (p : α → Bool) :
    (l.map fun o => o.filter p).reduceOption = l.reduceOption.filter p := by
  induction l with
  | nil => rfl
  | cons o r ih =>
    cases o with
    | none => simpa using ih
    | some x => by_cases h : p x = true <;> simp [Option.filter_some, h, ih]

theorem units_map_map {β : Type} (l : List (Option α)) (f : α → β) :
    (l.map fun o => o.map f).reduceOption = l.reduceOption.map f := by
  induction l with
  | nil => rfl
  | cons o r ih => cases o <;> simp [ih]

/-! ### TW: a unit by its sequence -/

theorem TxWindow.hasSlot_iff (tw : TxWindow) (k : Word) : tw.hasSlot k = true ↔ k ∈ tw.units.map (·.seq) := by
  simp only [TxWindow.hasSlot, TxWindow.units, List.any_eq_true, List.mem_map, mem_units]
  constructor
  · rintro ⟨o, ho, h⟩
    cases o with
    | none => simp at h
    | some t => exact ⟨t, ho, by simpa using h⟩
  · rintro ⟨t, ht, rfl⟩; exact ⟨some t, ht, by simp⟩

theorem freeSeq_eq_map (k : Word) (l : List (Option TimerSlot)) (h : (l.reduceOption.map (·.seq)).Nodup) :
    freeSeq k l = l.map fun o => o.filter fun t => t.seq != k := by
  induction l with
  | nil => rfl
  | cons o r ih =>
    cases o with
    | none => simpa [freeSeq] using ih (by simpa using h)
    | some t =>
      simp only [List.reduceOption_cons_of_some, List.map_cons, List.nodup_cons] at h
      by_cases hk : t.seq = k
      · subst hk
        have : ∀ o ∈ r, (o.filter fun t' => t'.seq != t.seq) = o := by
          intro o ho
          cases o with
          | none => rfl
          | some t' =>
            have hne : t'.seq ≠ t.seq := fun e => h.1 (by rw [← e]; exact List.mem_map_of_mem ((mem_units r t').mpr ho))
            simp [Option.filter, hne]
        simp only [freeSeq, if_true, List.map_cons, Option.filter]
        simp only [bne_self_eq_false, Bool.false_eq_true, if_false, List.cons.injEq, true_and]
        exact (List.map_congr_left this).trans (by simp) |>.symm
      · simp only [freeSeq, hk, if_false, List.map_cons, ih h.2]
        simp [Option.filter, hk]

/-! ### RB: a unit by its sequence -/

theorem findSeq_eq_none (k : Word) (l : List (Option RbSlot)) : findSeq k l = none ↔ ∀ r ∈ l.reduceOption, r.seq ≠ k := by
  induction l with
  | nil => simp [findSeq]
  | cons o r ih =>
    cases o with
    | none => simpa [findSeq] using ih
    | some t => by_cases h : t.seq = k <;> simp [findSeq, h, ih]

theorem findSeq_mem (k : Word) (l : List (Option RbSlot)) (r : RbSlot) (h : findSeq k l = some r) : r ∈ l.reduceOption ∧ r.seq = k := by
  induction l with
  | nil => simp [findSeq] at h
  | cons o l ih =>
    cases o with
    | none => simpa [findSeq] using ih (by simpa [findSeq] using h)
    | some t =>
      by_cases ht : t.seq = k
      · simp only [findSeq, ht, if_true, Option.some.injEq] at h
        subst h; simp [ht]
      · have := ih (by simpa [findSeq, ht] using h)
        simp [this.1, this.2]

theorem findSeq_isSome (k : Word) (l : List (Option RbSlot)) : (findSeq k l).isSome = true ↔ ∃ r ∈ l.reduceOption, r.seq = k := by
  cases h : findSeq k l with
  | none => simpa using (findSeq_eq_none k l).mp h
  | some r => simpa using ⟨r, findSeq_mem k l r h⟩

/-- The payload replaced is that of the lowest-index slot of the sequence. -/
theorem replacePayload_eq_set (k : Word) (p : List Byte) (l : List (Option RbSlot)) (j : Nat) (r : RbSlot) (h : l[j]? = some (some r))
    (hk : r.seq = k) (hlow : ∀ i < j, ∀ r', l[i]? = some (some r') → r'.seq ≠ k) :
    replacePayload k p l = l.set j (some { seq := k, payload := p }) := by
  induction l generalizing j with
  | nil => simp at h
  | cons o l ih =>
    cases j with
    | zero =>
      simp only [List.getElem?_cons_zero, Option.some.injEq] at h
      subst h; subst hk; simp [replacePayload]
    | succ j =>
      have hrec := ih j (by simpa using h) (fun i hi r' hr' => hlow (i + 1) (by omega) r' (by simpa using hr'))
      cases o with
      | none => simp [replacePayload, hrec]
      | some t =>
        have : t.seq ≠ k := hlow 0 (by omega) t rfl
        simp [replacePayload, this, hrec]

end Sys2Proof.Machine
end

