-- ==== Sys2Proof/Laws/State.lean ====
section
/-! SUPPORT. What each update of the state leaves in each field, so that no proof unfolds a record update; and the two ways a command
ends, in the words the statements use. -/

namespace Sys2Proof.Machine

/-! ### How a command ends -/

/-- A failed command is a next state with the error recorded. -/
theorem failed_eq (c : ErrCode) (s : State) : failed c s = .next (s.failedWith c.bits) := rfl

/-- A successful command is a next state with the six results written. -/
theorem done_eq (r : Results) (s : State) : done r s = .next (s.answered r.r0 r.r1 r.r2 r.r3 r.r4 r.r5) := rfl

/-- Raising an error records its code. -/
theorem raise_eq_failedWith (s : State) (c : ErrCode) : s.raise c = s.failedWith c.bits := rfl

/-- Every error code is one of 1 to 10. -/
theorem ErrCode.bits_range (c : ErrCode) : 1 ≤ c.bits.toNat ∧ c.bits.toNat ≤ 10 := by cases c <;> decide

/-- The arbiter touches TW and EVT only. -/
theorem State.arbitrate_frame (s : State) : { s.arbitrate with tw := s.tw, evt := s.evt } = s := rfl

/-! ### `State.raise` -/

@[simp] theorem State.raise_args (s : State) (c : ErrCode) : (s.raise c).args = s.args := rfl
@[simp] theorem State.raise_res (s : State) (c : ErrCode) : (s.raise c).res = s.res := rfl
@[simp] theorem State.raise_err (s : State) (c : ErrCode) : (s.raise c).err = true := rfl
@[simp] theorem State.raise_errcode (s : State) (c : ErrCode) : (s.raise c).errcode = c.bits := rfl
@[simp] theorem State.raise_cmdOvr (s : State) (c : ErrCode) : (s.raise c).cmdOvr = s.cmdOvr := rfl
@[simp] theorem State.raise_accErr (s : State) (c : ErrCode) : (s.raise c).accErr = s.accErr := rfl
@[simp] theorem State.raise_irqEn (s : State) (c : ErrCode) : (s.raise c).irqEn = s.irqEn := rfl
@[simp] theorem State.raise_pending (s : State) (c : ErrCode) : (s.raise c).pending = s.pending := rfl
@[simp] theorem State.raise_mem (s : State) (c : ErrCode) : (s.raise c).mem = s.mem := rfl
@[simp] theorem State.raise_latch (s : State) (c : ErrCode) : (s.raise c).latch = s.latch := rfl
@[simp] theorem State.raise_tw (s : State) (c : ErrCode) : (s.raise c).tw = s.tw := rfl
@[simp] theorem State.raise_rb (s : State) (c : ErrCode) : (s.raise c).rb = s.rb := rfl
@[simp] theorem State.raise_dlv (s : State) (c : ErrCode) : (s.raise c).dlv = s.dlv := rfl
@[simp] theorem State.raise_evt (s : State) (c : ErrCode) : (s.raise c).evt = s.evt := rfl
@[simp] theorem State.raise_rdata (s : State) (c : ErrCode) : (s.raise c).rdata = s.rdata := rfl
@[simp] theorem State.raise_trace (s : State) (c : ErrCode) : (s.raise c).trace = s.trace := rfl

/-! ### `State.succeed` -/

@[simp] theorem State.succeed_args (s : State) (r : Results) : (s.succeed r).args = s.args := rfl
@[simp] theorem State.succeed_res (s : State) (r : Results) : (s.succeed r).res = r := rfl
@[simp] theorem State.succeed_err (s : State) (r : Results) : (s.succeed r).err = false := rfl
@[simp] theorem State.succeed_errcode (s : State) (r : Results) : (s.succeed r).errcode = 0#4 := rfl
@[simp] theorem State.succeed_cmdOvr (s : State) (r : Results) : (s.succeed r).cmdOvr = s.cmdOvr := rfl
@[simp] theorem State.succeed_accErr (s : State) (r : Results) : (s.succeed r).accErr = s.accErr := rfl
@[simp] theorem State.succeed_irqEn (s : State) (r : Results) : (s.succeed r).irqEn = s.irqEn := rfl
@[simp] theorem State.succeed_pending (s : State) (r : Results) : (s.succeed r).pending = s.pending := rfl
@[simp] theorem State.succeed_mem (s : State) (r : Results) : (s.succeed r).mem = s.mem := rfl
@[simp] theorem State.succeed_latch (s : State) (r : Results) : (s.succeed r).latch = s.latch := rfl
@[simp] theorem State.succeed_tw (s : State) (r : Results) : (s.succeed r).tw = s.tw := rfl
@[simp] theorem State.succeed_rb (s : State) (r : Results) : (s.succeed r).rb = s.rb := rfl
@[simp] theorem State.succeed_dlv (s : State) (r : Results) : (s.succeed r).dlv = s.dlv := rfl
@[simp] theorem State.succeed_evt (s : State) (r : Results) : (s.succeed r).evt = s.evt := rfl
@[simp] theorem State.succeed_rdata (s : State) (r : Results) : (s.succeed r).rdata = s.rdata := rfl
@[simp] theorem State.succeed_trace (s : State) (r : Results) : (s.succeed r).trace = s.trace := rfl

/-! ### `State.refuse` -/

@[simp] theorem State.refuse_args (s : State) : (s.refuse).args = s.args := rfl
@[simp] theorem State.refuse_res (s : State) : (s.refuse).res = s.res := rfl
@[simp] theorem State.refuse_err (s : State) : (s.refuse).err = s.err := rfl
@[simp] theorem State.refuse_errcode (s : State) : (s.refuse).errcode = s.errcode := rfl
@[simp] theorem State.refuse_cmdOvr (s : State) : (s.refuse).cmdOvr = s.cmdOvr := rfl
@[simp] theorem State.refuse_accErr (s : State) : (s.refuse).accErr = true := rfl
@[simp] theorem State.refuse_irqEn (s : State) : (s.refuse).irqEn = s.irqEn := rfl
@[simp] theorem State.refuse_pending (s : State) : (s.refuse).pending = s.pending := rfl
@[simp] theorem State.refuse_mem (s : State) : (s.refuse).mem = s.mem := rfl
@[simp] theorem State.refuse_latch (s : State) : (s.refuse).latch = s.latch := rfl
@[simp] theorem State.refuse_tw (s : State) : (s.refuse).tw = s.tw := rfl
@[simp] theorem State.refuse_rb (s : State) : (s.refuse).rb = s.rb := rfl
@[simp] theorem State.refuse_dlv (s : State) : (s.refuse).dlv = s.dlv := rfl
@[simp] theorem State.refuse_evt (s : State) : (s.refuse).evt = s.evt := rfl
@[simp] theorem State.refuse_rdata (s : State) : (s.refuse).rdata = s.rdata := rfl
@[simp] theorem State.refuse_trace (s : State) : (s.refuse).trace = s.trace := rfl

/-! ### `State.putObuf` -/

@[simp] theorem State.putObuf_args (s : State) (bs : List Byte) : (s.putObuf bs).args = s.args := rfl
@[simp] theorem State.putObuf_res (s : State) (bs : List Byte) : (s.putObuf bs).res = s.res := rfl
@[simp] theorem State.putObuf_err (s : State) (bs : List Byte) : (s.putObuf bs).err = s.err := rfl
@[simp] theorem State.putObuf_errcode (s : State) (bs : List Byte) : (s.putObuf bs).errcode = s.errcode := rfl
@[simp] theorem State.putObuf_cmdOvr (s : State) (bs : List Byte) : (s.putObuf bs).cmdOvr = s.cmdOvr := rfl
@[simp] theorem State.putObuf_accErr (s : State) (bs : List Byte) : (s.putObuf bs).accErr = s.accErr := rfl
@[simp] theorem State.putObuf_irqEn (s : State) (bs : List Byte) : (s.putObuf bs).irqEn = s.irqEn := rfl
@[simp] theorem State.putObuf_pending (s : State) (bs : List Byte) : (s.putObuf bs).pending = s.pending := rfl
@[simp] theorem State.putObuf_mem (s : State) (bs : List Byte) : (s.putObuf bs).mem = s.mem.setBytes obufBase bs := rfl
@[simp] theorem State.putObuf_latch (s : State) (bs : List Byte) : (s.putObuf bs).latch = s.latch := rfl
@[simp] theorem State.putObuf_tw (s : State) (bs : List Byte) : (s.putObuf bs).tw = s.tw := rfl
@[simp] theorem State.putObuf_rb (s : State) (bs : List Byte) : (s.putObuf bs).rb = s.rb := rfl
@[simp] theorem State.putObuf_dlv (s : State) (bs : List Byte) : (s.putObuf bs).dlv = s.dlv := rfl
@[simp] theorem State.putObuf_evt (s : State) (bs : List Byte) : (s.putObuf bs).evt = s.evt := rfl
@[simp] theorem State.putObuf_rdata (s : State) (bs : List Byte) : (s.putObuf bs).rdata = s.rdata := rfl
@[simp] theorem State.putObuf_trace (s : State) (bs : List Byte) : (s.putObuf bs).trace = s.trace := rfl

/-! ### `State.clear` -/

@[simp] theorem State.clear_args (s : State) (l d e c : Bool) : (s.clear l d e c).args = s.args := rfl
@[simp] theorem State.clear_res (s : State) (l d e c : Bool) : (s.clear l d e c).res = s.res := rfl
@[simp] theorem State.clear_err (s : State) (l d e c : Bool) : (s.clear l d e c).err = s.err := rfl
@[simp] theorem State.clear_errcode (s : State) (l d e c : Bool) : (s.clear l d e c).errcode = s.errcode := rfl
@[simp] theorem State.clear_cmdOvr (s : State) (l d e c : Bool) : (s.clear l d e c).cmdOvr = s.cmdOvr := rfl
@[simp] theorem State.clear_accErr (s : State) (l d e c : Bool) : (s.clear l d e c).accErr = s.accErr := rfl
@[simp] theorem State.clear_irqEn (s : State) (l d e c : Bool) : (s.clear l d e c).irqEn = s.irqEn := rfl
@[simp] theorem State.clear_pending (s : State) (l d e c : Bool) : (s.clear l d e c).pending = s.pending := rfl
@[simp] theorem State.clear_mem (s : State) (l d e c : Bool) : (s.clear l d e c).mem = s.mem := rfl
@[simp] theorem State.clear_latch (s : State) (l d e c : Bool) : (s.clear l d e c).latch = if l then none else s.latch := rfl
@[simp] theorem State.clear_tw (s : State) (l d e c : Bool) : (s.clear l d e c).tw = if c then { s.tw with giveupCnt := 0#32, retxCnt := 0#32 } else s.tw := rfl
@[simp] theorem State.clear_rb (s : State) (l d e c : Bool) : (s.clear l d e c).rb = s.rb := rfl
@[simp] theorem State.clear_dlv (s : State) (l d e c : Bool) : (s.clear l d e c).dlv = if d then [] else s.dlv := rfl
@[simp] theorem State.clear_evt (s : State) (l d e c : Bool) : (s.clear l d e c).evt = if e then [] else s.evt := rfl
@[simp] theorem State.clear_rdata (s : State) (l d e c : Bool) : (s.clear l d e c).rdata = s.rdata := rfl
@[simp] theorem State.clear_trace (s : State) (l d e c : Bool) : (s.clear l d e c).trace = s.trace := rfl

/-! ### `State.arbitrate` -/

@[simp] theorem State.arbitrate_args (s : State) : (s.arbitrate).args = s.args := rfl
@[simp] theorem State.arbitrate_res (s : State) : (s.arbitrate).res = s.res := rfl
@[simp] theorem State.arbitrate_err (s : State) : (s.arbitrate).err = s.err := rfl
@[simp] theorem State.arbitrate_errcode (s : State) : (s.arbitrate).errcode = s.errcode := rfl
@[simp] theorem State.arbitrate_cmdOvr (s : State) : (s.arbitrate).cmdOvr = s.cmdOvr := rfl
@[simp] theorem State.arbitrate_accErr (s : State) : (s.arbitrate).accErr = s.accErr := rfl
@[simp] theorem State.arbitrate_irqEn (s : State) : (s.arbitrate).irqEn = s.irqEn := rfl
@[simp] theorem State.arbitrate_pending (s : State) : (s.arbitrate).pending = s.pending := rfl
@[simp] theorem State.arbitrate_mem (s : State) : (s.arbitrate).mem = s.mem := rfl
@[simp] theorem State.arbitrate_latch (s : State) : (s.arbitrate).latch = s.latch := rfl
@[simp] theorem State.arbitrate_tw (s : State) : (s.arbitrate).tw = (arbitrateLoop Config.giveupSlides Config.srSlide Config.evtDepth s.tw s.evt).1 := rfl
@[simp] theorem State.arbitrate_rb (s : State) : (s.arbitrate).rb = s.rb := rfl
@[simp] theorem State.arbitrate_dlv (s : State) : (s.arbitrate).dlv = s.dlv := rfl
@[simp] theorem State.arbitrate_evt (s : State) : (s.arbitrate).evt = (arbitrateLoop Config.giveupSlides Config.srSlide Config.evtDepth s.tw s.evt).2 := rfl
@[simp] theorem State.arbitrate_rdata (s : State) : (s.arbitrate).rdata = s.rdata := rfl
@[simp] theorem State.arbitrate_trace (s : State) : (s.arbitrate).trace = s.trace := rfl

/-! ### `State.tick` -/

@[simp] theorem State.tick_args (s : State) : (s.tick).args = s.args := rfl
@[simp] theorem State.tick_res (s : State) : (s.tick).res = s.res := rfl
@[simp] theorem State.tick_err (s : State) : (s.tick).err = s.err := rfl
@[simp] theorem State.tick_errcode (s : State) : (s.tick).errcode = s.errcode := rfl
@[simp] theorem State.tick_cmdOvr (s : State) : (s.tick).cmdOvr = s.cmdOvr := rfl
@[simp] theorem State.tick_accErr (s : State) : (s.tick).accErr = s.accErr := rfl
@[simp] theorem State.tick_irqEn (s : State) : (s.tick).irqEn = s.irqEn := rfl
@[simp] theorem State.tick_pending (s : State) : (s.tick).pending = s.pending := rfl
@[simp] theorem State.tick_mem (s : State) : (s.tick).mem = s.mem := rfl
@[simp] theorem State.tick_latch (s : State) : (s.tick).latch = s.latch := rfl
@[simp] theorem State.tick_tw (s : State) : (s.tick).tw = (arbitrateLoop Config.giveupSlides Config.srSlide Config.evtDepth s.tw.tick s.evt).1 := rfl
@[simp] theorem State.tick_rb (s : State) : (s.tick).rb = s.rb := rfl
@[simp] theorem State.tick_dlv (s : State) : (s.tick).dlv = s.dlv := rfl
@[simp] theorem State.tick_evt (s : State) : (s.tick).evt = (arbitrateLoop Config.giveupSlides Config.srSlide Config.evtDepth s.tw.tick s.evt).2 := rfl
@[simp] theorem State.tick_rdata (s : State) : (s.tick).rdata = s.rdata := rfl
@[simp] theorem State.tick_trace (s : State) : (s.tick).trace = s.trace := rfl

/-! ### `State.writeStatus` -/

@[simp] theorem State.writeStatus_args (s : State) (w : Word) : (s.writeStatus w).args = s.args := rfl
@[simp] theorem State.writeStatus_res (s : State) (w : Word) : (s.writeStatus w).res = s.res := rfl
@[simp] theorem State.writeStatus_err (s : State) (w : Word) : (s.writeStatus w).err = s.err := rfl
@[simp] theorem State.writeStatus_errcode (s : State) (w : Word) : (s.writeStatus w).errcode = s.errcode := rfl
@[simp] theorem State.writeStatus_cmdOvr (s : State) (w : Word) : (s.writeStatus w).cmdOvr = (s.cmdOvr && !w.getLsbD 13) := rfl
@[simp] theorem State.writeStatus_accErr (s : State) (w : Word) : (s.writeStatus w).accErr = (s.accErr && !w.getLsbD 16) := rfl
@[simp] theorem State.writeStatus_irqEn (s : State) (w : Word) : (s.writeStatus w).irqEn = s.irqEn := rfl
@[simp] theorem State.writeStatus_pending (s : State) (w : Word) : (s.writeStatus w).pending = s.pending := rfl
@[simp] theorem State.writeStatus_mem (s : State) (w : Word) : (s.writeStatus w).mem = s.mem := rfl
@[simp] theorem State.writeStatus_latch (s : State) (w : Word) : (s.writeStatus w).latch = s.latch := rfl
@[simp] theorem State.writeStatus_tw (s : State) (w : Word) : (s.writeStatus w).tw = s.tw := rfl
@[simp] theorem State.writeStatus_rb (s : State) (w : Word) : (s.writeStatus w).rb = s.rb := rfl
@[simp] theorem State.writeStatus_dlv (s : State) (w : Word) : (s.writeStatus w).dlv = s.dlv := rfl
@[simp] theorem State.writeStatus_evt (s : State) (w : Word) : (s.writeStatus w).evt = s.evt := rfl
@[simp] theorem State.writeStatus_rdata (s : State) (w : Word) : (s.writeStatus w).rdata = s.rdata := rfl
@[simp] theorem State.writeStatus_trace (s : State) (w : Word) : (s.writeStatus w).trace = s.trace := rfl

/-! ### `State.withFetchWord` -/

@[simp] theorem State.withFetchWord_args (s : State) (n w : Nat) : (s.withFetchWord n w).args = s.args := rfl
@[simp] theorem State.withFetchWord_res (s : State) (n w : Nat) : (s.withFetchWord n w).res = s.res := rfl
@[simp] theorem State.withFetchWord_err (s : State) (n w : Nat) : (s.withFetchWord n w).err = s.err := rfl
@[simp] theorem State.withFetchWord_errcode (s : State) (n w : Nat) : (s.withFetchWord n w).errcode = s.errcode := rfl
@[simp] theorem State.withFetchWord_cmdOvr (s : State) (n w : Nat) : (s.withFetchWord n w).cmdOvr = s.cmdOvr := rfl
@[simp] theorem State.withFetchWord_accErr (s : State) (n w : Nat) : (s.withFetchWord n w).accErr = s.accErr := rfl
@[simp] theorem State.withFetchWord_irqEn (s : State) (n w : Nat) : (s.withFetchWord n w).irqEn = s.irqEn := rfl
@[simp] theorem State.withFetchWord_pending (s : State) (n w : Nat) : (s.withFetchWord n w).pending = some (BitVec.ofNat 32 (w % 2 ^ n)) := rfl
@[simp] theorem State.withFetchWord_mem (s : State) (n w : Nat) : (s.withFetchWord n w).mem = s.mem := rfl
@[simp] theorem State.withFetchWord_latch (s : State) (n w : Nat) : (s.withFetchWord n w).latch = s.latch := rfl
@[simp] theorem State.withFetchWord_tw (s : State) (n w : Nat) : (s.withFetchWord n w).tw = s.tw := rfl
@[simp] theorem State.withFetchWord_rb (s : State) (n w : Nat) : (s.withFetchWord n w).rb = s.rb := rfl
@[simp] theorem State.withFetchWord_dlv (s : State) (n w : Nat) : (s.withFetchWord n w).dlv = s.dlv := rfl
@[simp] theorem State.withFetchWord_evt (s : State) (n w : Nat) : (s.withFetchWord n w).evt = s.evt := rfl
@[simp] theorem State.withFetchWord_rdata (s : State) (n w : Nat) : (s.withFetchWord n w).rdata = s.rdata := rfl
@[simp] theorem State.withFetchWord_trace (s : State) (n w : Nat) : (s.withFetchWord n w).trace = .engine :: s.trace := rfl

/-! ### `State.answered` -/

@[simp] theorem State.answered_args (s : State) (a b c d e f : Word) : (s.answered a b c d e f).args = s.args := rfl
@[simp] theorem State.answered_res (s : State) (a b c d e f : Word) : (s.answered a b c d e f).res = { r0 := a, r1 := b, r2 := c, r3 := d, r4 := e, r5 := f } := rfl
@[simp] theorem State.answered_err (s : State) (a b c d e f : Word) : (s.answered a b c d e f).err = false := rfl
@[simp] theorem State.answered_errcode (s : State) (a b c d e f : Word) : (s.answered a b c d e f).errcode = 0#4 := rfl
@[simp] theorem State.answered_cmdOvr (s : State) (a b c d e f : Word) : (s.answered a b c d e f).cmdOvr = s.cmdOvr := rfl
@[simp] theorem State.answered_accErr (s : State) (a b c d e f : Word) : (s.answered a b c d e f).accErr = s.accErr := rfl
@[simp] theorem State.answered_irqEn (s : State) (a b c d e f : Word) : (s.answered a b c d e f).irqEn = s.irqEn := rfl
@[simp] theorem State.answered_pending (s : State) (a b c d e f : Word) : (s.answered a b c d e f).pending = s.pending := rfl
@[simp] theorem State.answered_mem (s : State) (a b c d e f : Word) : (s.answered a b c d e f).mem = s.mem := rfl
@[simp] theorem State.answered_latch (s : State) (a b c d e f : Word) : (s.answered a b c d e f).latch = s.latch := rfl
@[simp] theorem State.answered_tw (s : State) (a b c d e f : Word) : (s.answered a b c d e f).tw = s.tw := rfl
@[simp] theorem State.answered_rb (s : State) (a b c d e f : Word) : (s.answered a b c d e f).rb = s.rb := rfl
@[simp] theorem State.answered_dlv (s : State) (a b c d e f : Word) : (s.answered a b c d e f).dlv = s.dlv := rfl
@[simp] theorem State.answered_evt (s : State) (a b c d e f : Word) : (s.answered a b c d e f).evt = s.evt := rfl
@[simp] theorem State.answered_rdata (s : State) (a b c d e f : Word) : (s.answered a b c d e f).rdata = s.rdata := rfl
@[simp] theorem State.answered_trace (s : State) (a b c d e f : Word) : (s.answered a b c d e f).trace = s.trace := rfl

/-! ### `State.failedWith` -/

@[simp] theorem State.failedWith_args (s : State) (c : BitVec 4) : (s.failedWith c).args = s.args := rfl
@[simp] theorem State.failedWith_res (s : State) (c : BitVec 4) : (s.failedWith c).res = s.res := rfl
@[simp] theorem State.failedWith_err (s : State) (c : BitVec 4) : (s.failedWith c).err = true := rfl
@[simp] theorem State.failedWith_errcode (s : State) (c : BitVec 4) : (s.failedWith c).errcode = c := rfl
@[simp] theorem State.failedWith_cmdOvr (s : State) (c : BitVec 4) : (s.failedWith c).cmdOvr = s.cmdOvr := rfl
@[simp] theorem State.failedWith_accErr (s : State) (c : BitVec 4) : (s.failedWith c).accErr = s.accErr := rfl
@[simp] theorem State.failedWith_irqEn (s : State) (c : BitVec 4) : (s.failedWith c).irqEn = s.irqEn := rfl
@[simp] theorem State.failedWith_pending (s : State) (c : BitVec 4) : (s.failedWith c).pending = s.pending := rfl
@[simp] theorem State.failedWith_mem (s : State) (c : BitVec 4) : (s.failedWith c).mem = s.mem := rfl
@[simp] theorem State.failedWith_latch (s : State) (c : BitVec 4) : (s.failedWith c).latch = s.latch := rfl
@[simp] theorem State.failedWith_tw (s : State) (c : BitVec 4) : (s.failedWith c).tw = s.tw := rfl
@[simp] theorem State.failedWith_rb (s : State) (c : BitVec 4) : (s.failedWith c).rb = s.rb := rfl
@[simp] theorem State.failedWith_dlv (s : State) (c : BitVec 4) : (s.failedWith c).dlv = s.dlv := rfl
@[simp] theorem State.failedWith_evt (s : State) (c : BitVec 4) : (s.failedWith c).evt = s.evt := rfl
@[simp] theorem State.failedWith_rdata (s : State) (c : BitVec 4) : (s.failedWith c).rdata = s.rdata := rfl
@[simp] theorem State.failedWith_trace (s : State) (c : BitVec 4) : (s.failedWith c).trace = s.trace := rfl

/-! ### `TxWindow.init` -/

@[simp] theorem TxWindow.init_cfg (tw : TxWindow) (k : Word) (r : Bool) : (tw.init k r).cfg = tw.cfg := rfl
@[simp] theorem TxWindow.init_timeout (tw : TxWindow) (k : Word) (r : Bool) : (tw.init k r).timeout = tw.timeout := rfl
@[simp] theorem TxWindow.init_base (tw : TxWindow) (k : Word) (r : Bool) : (tw.init k r).base = k := rfl
@[simp] theorem TxWindow.init_next (tw : TxWindow) (k : Word) (r : Bool) : (tw.init k r).next = k := rfl
@[simp] theorem TxWindow.init_shared (tw : TxWindow) (k : Word) (r : Bool) : (tw.init k r).shared = SharedTimer.off := rfl
@[simp] theorem TxWindow.init_retry (tw : TxWindow) (k : Word) (r : Bool) : (tw.init k r).retry = 0#8 := rfl
@[simp] theorem TxWindow.init_ptag (tw : TxWindow) (k : Word) (r : Bool) : (tw.init k r).ptag = 0#32 := rfl
@[simp] theorem TxWindow.init_abort (tw : TxWindow) (k : Word) (r : Bool) : (tw.init k r).abort = false := rfl
@[simp] theorem TxWindow.init_stopped (tw : TxWindow) (k : Word) (r : Bool) : (tw.init k r).stopped = false := rfl
@[simp] theorem TxWindow.init_slots (tw : TxWindow) (k : Word) (r : Bool) : (tw.init k r).slots = tw.noSlots := rfl
@[simp] theorem TxWindow.init_est (tw : TxWindow) (k : Word) (r : Bool) : (tw.init k r).est = if r then Estimator.reset else tw.est := rfl
@[simp] theorem TxWindow.init_giveupCnt (tw : TxWindow) (k : Word) (r : Bool) : (tw.init k r).giveupCnt = tw.giveupCnt := rfl
@[simp] theorem TxWindow.init_retxCnt (tw : TxWindow) (k : Word) (r : Bool) : (tw.init k r).retxCnt = tw.retxCnt := rfl

/-! ### `TxWindow.admitGbn` -/

@[simp] theorem TxWindow.admitGbn_cfg (tw : TxWindow) : (tw.admitGbn).cfg = tw.cfg := rfl
@[simp] theorem TxWindow.admitGbn_timeout (tw : TxWindow) : (tw.admitGbn).timeout = tw.timeout := rfl
@[simp] theorem TxWindow.admitGbn_base (tw : TxWindow) : (tw.admitGbn).base = tw.base := rfl
@[simp] theorem TxWindow.admitGbn_next (tw : TxWindow) : (tw.admitGbn).next = tw.next + 1#32 := rfl
@[simp] theorem TxWindow.admitGbn_shared (tw : TxWindow) : (tw.admitGbn).shared = if tw.outstanding = 0#32 then SharedTimer.armedWith tw.timeout else tw.shared := rfl
@[simp] theorem TxWindow.admitGbn_retry (tw : TxWindow) : (tw.admitGbn).retry = tw.retry := rfl
@[simp] theorem TxWindow.admitGbn_ptag (tw : TxWindow) : (tw.admitGbn).ptag = tw.ptag := rfl
@[simp] theorem TxWindow.admitGbn_abort (tw : TxWindow) : (tw.admitGbn).abort = tw.abort := rfl
@[simp] theorem TxWindow.admitGbn_stopped (tw : TxWindow) : (tw.admitGbn).stopped = tw.stopped := rfl
@[simp] theorem TxWindow.admitGbn_slots (tw : TxWindow) : (tw.admitGbn).slots = tw.slots := rfl
@[simp] theorem TxWindow.admitGbn_est (tw : TxWindow) : (tw.admitGbn).est = tw.est := rfl
@[simp] theorem TxWindow.admitGbn_giveupCnt (tw : TxWindow) : (tw.admitGbn).giveupCnt = tw.giveupCnt := rfl
@[simp] theorem TxWindow.admitGbn_retxCnt (tw : TxWindow) : (tw.admitGbn).retxCnt = tw.retxCnt := rfl

/-! ### `TxWindow.admitSr` -/

@[simp] theorem TxWindow.admitSr_cfg (tw : TxWindow) (j : Nat) : (tw.admitSr j).cfg = tw.cfg := rfl
@[simp] theorem TxWindow.admitSr_timeout (tw : TxWindow) (j : Nat) : (tw.admitSr j).timeout = tw.timeout := rfl
@[simp] theorem TxWindow.admitSr_base (tw : TxWindow) (j : Nat) : (tw.admitSr j).base = tw.base := rfl
@[simp] theorem TxWindow.admitSr_next (tw : TxWindow) (j : Nat) : (tw.admitSr j).next = tw.next + 1#32 := rfl
@[simp] theorem TxWindow.admitSr_shared (tw : TxWindow) (j : Nat) : (tw.admitSr j).shared = tw.shared := rfl
@[simp] theorem TxWindow.admitSr_retry (tw : TxWindow) (j : Nat) : (tw.admitSr j).retry = tw.retry := rfl
@[simp] theorem TxWindow.admitSr_ptag (tw : TxWindow) (j : Nat) : (tw.admitSr j).ptag = tw.ptag := rfl
@[simp] theorem TxWindow.admitSr_abort (tw : TxWindow) (j : Nat) : (tw.admitSr j).abort = tw.abort := rfl
@[simp] theorem TxWindow.admitSr_stopped (tw : TxWindow) (j : Nat) : (tw.admitSr j).stopped = tw.stopped := rfl
@[simp] theorem TxWindow.admitSr_slots (tw : TxWindow) (j : Nat) : (tw.admitSr j).slots = tw.slots.set j (some { seq := tw.next, rem := tw.timeout, retries := 0#8 }) := rfl
@[simp] theorem TxWindow.admitSr_est (tw : TxWindow) (j : Nat) : (tw.admitSr j).est = tw.est := rfl
@[simp] theorem TxWindow.admitSr_giveupCnt (tw : TxWindow) (j : Nat) : (tw.admitSr j).giveupCnt = tw.giveupCnt := rfl
@[simp] theorem TxWindow.admitSr_retxCnt (tw : TxWindow) (j : Nat) : (tw.admitSr j).retxCnt = tw.retxCnt := rfl

/-! ### `TxWindow.tick` -/

@[simp] theorem TxWindow.tick_cfg (tw : TxWindow) : (tw.tick).cfg = tw.cfg := rfl
@[simp] theorem TxWindow.tick_timeout (tw : TxWindow) : (tw.tick).timeout = tw.timeout := rfl
@[simp] theorem TxWindow.tick_base (tw : TxWindow) : (tw.tick).base = tw.base := rfl
@[simp] theorem TxWindow.tick_next (tw : TxWindow) : (tw.tick).next = tw.next := rfl
@[simp] theorem TxWindow.tick_shared (tw : TxWindow) : (tw.tick).shared = if tw.shared.armed then { tw.shared with rem := countDown tw.shared.rem } else tw.shared := rfl
@[simp] theorem TxWindow.tick_retry (tw : TxWindow) : (tw.tick).retry = tw.retry := rfl
@[simp] theorem TxWindow.tick_ptag (tw : TxWindow) : (tw.tick).ptag = tw.ptag := rfl
@[simp] theorem TxWindow.tick_abort (tw : TxWindow) : (tw.tick).abort = tw.abort := rfl
@[simp] theorem TxWindow.tick_stopped (tw : TxWindow) : (tw.tick).stopped = tw.stopped := rfl
@[simp] theorem TxWindow.tick_slots (tw : TxWindow) : (tw.tick).slots = tw.slots.map fun o => o.map fun t => { t with rem := countDown t.rem } := rfl
@[simp] theorem TxWindow.tick_est (tw : TxWindow) : (tw.tick).est = tw.est := rfl
@[simp] theorem TxWindow.tick_giveupCnt (tw : TxWindow) : (tw.tick).giveupCnt = tw.giveupCnt := rfl
@[simp] theorem TxWindow.tick_retxCnt (tw : TxWindow) : (tw.tick).retxCnt = tw.retxCnt := rfl

end Sys2Proof.Machine
end

