-- ==== Sys2Proof/Laws/Arbiter.lean ====
section
/-! SUPPORT. The slide, the expiry services and the arbiter: what each can do, said once (42_txwindow_timers.md R229-R231, R250-R256). -/

namespace Sys2Proof.Machine

/-! ### The slide -/

theorem TxWindow.acked_dist (tw : TxWindow) (x : Word) (h : tw.acked x = true) : (dist tw.base x).toNat < tw.outstanding.toNat := by
  simp only [TxWindow.acked, Bool.and_eq_true, decide_eq_true_eq] at h
  exact h.1

theorem TxWindow.takeWhile_window_le (tw : TxWindow) (p : Nat → Bool) : (tw.window.takeWhile p).length ≤ tw.outstanding.toNat := by
  have := (List.takeWhile_sublist p (l := tw.window)).length_le
  simpa [TxWindow.window] using this

/-- A slide moves the base forward inside the window and does nothing else. -/
theorem TxWindow.slide_eq (rule : Config.SrSlide) (tw : TxWindow) :
    ∃ n : Nat, n ≤ tw.outstanding.toNat ∧ tw.slide rule = { tw with base := tw.base + BitVec.ofNat 32 n } := by
  cases rule with
  | skip =>
    simp only [TxWindow.slide, TxWindow.slideSkip]
    split
    · exact ⟨0, by omega, by simp⟩
    · rename_i i hi
      have hm := List.mem_of_getLast? hi
      simp only [List.mem_filter, TxWindow.window, List.mem_range] at hm
      exact ⟨i + 1, by omega, rfl⟩
  | contiguous =>
    exact ⟨_, tw.takeWhile_window_le _, rfl⟩

theorem TxWindow.slideAt_eq (rule : Config.SrSlide) (k : Word) (tw : TxWindow) :
    ∃ n : Nat, n ≤ tw.outstanding.toNat ∧ tw.slideAt rule k = { tw with base := tw.base + BitVec.ofNat 32 n } := by
  unfold TxWindow.slideAt
  split
  · exact tw.slide_eq rule
  · exact ⟨0, by omega, by simp⟩

/-- The units outstanding after the base has moved forward inside the window. -/
theorem dist_base_add (b n : Word) (i : Nat) (h : i ≤ (dist b n).toNat) :
    (dist (b + BitVec.ofNat 32 i) n).toNat = (dist b n).toNat - i := by
  have := (dist b n).isLt
  unfold dist at *; bv_omega

/-! ### The oldest expired slot (R251) -/

theorem oldestExpired_eq_none (next : Word) (j : Nat) (l : List (Option TimerSlot)) :
    oldestExpired next j l = none ↔ ∀ t ∈ l.reduceOption, t.rem ≠ 0#24 := by
  induction l generalizing j with
  | nil => simp [oldestExpired]
  | cons o r ih =>
    cases o with
    | none => simpa [oldestExpired] using ih (j + 1)
    | some t =>
      by_cases h : t.rem = 0#24
      · simp only [oldestExpired, h, if_true]
        split <;> simp [h]
      · simpa [oldestExpired, h] using ih (j + 1)

/-- The slot the arbiter picks is valid, expired, and as old as any expired unit. -/
theorem oldestExpired_spec (next : Word) (j : Nat) (l : List (Option TimerSlot)) (b : Nat × TimerSlot)
    (h : oldestExpired next j l = some b) :
    j ≤ b.1 ∧ l[b.1 - j]? = some (some b.2) ∧ b.2.rem = 0#24 ∧
      ∀ t ∈ l.reduceOption, t.rem = 0#24 → (dist t.seq next).toNat ≤ (dist b.2.seq next).toNat := by
  induction l generalizing j b with
  | nil => simp [oldestExpired] at h
  | cons o r ih =>
    have shift : ∀ c : Nat × TimerSlot, j + 1 ≤ c.1 → r[c.1 - (j + 1)]? = some (some c.2) → (o :: r)[c.1 - j]? = some (some c.2) := by
      intro c hc hr
      rw [show c.1 - j = (c.1 - (j + 1)) + 1 by omega, List.getElem?_cons_succ]; exact hr
    cases o with
    | none =>
      obtain ⟨h1, h2, h3, h4⟩ := ih (j + 1) b (by simpa [oldestExpired] using h)
      exact ⟨by omega, shift b h1 h2, h3, by simpa using h4⟩
    | some t =>
      by_cases ht : t.rem = 0#24
      · simp only [oldestExpired, ht, if_true] at h
        split at h
        · rename_i hn
          cases h
          have hn' := (oldestExpired_eq_none _ _ _).mp hn
          refine ⟨by simp, by simp, ht, ?_⟩
          intro t' ht' h0
          rcases (by simpa using ht') with rfl | hm
          · exact Nat.le_refl _
          · exact absurd h0 (hn' t' hm)
        · rename_i best hb
          obtain ⟨h1, h2, h3, h4⟩ := ih (j + 1) best hb
          simp only [Option.some.injEq, olderOf] at h
          split at h <;> rename_i hlt <;> subst h
          · refine ⟨by omega, shift best h1 h2, h3, ?_⟩
            intro t' ht' h0
            rcases (by simpa using ht') with rfl | hm
            · exact Nat.le_of_lt hlt
            · exact h4 t' hm h0
          · refine ⟨by simp, by simp, ht, ?_⟩
            intro t' ht' h0
            rcases (by simpa using ht') with rfl | hm
            · exact Nat.le_refl _
            · exact Nat.le_trans (h4 t' hm h0) (Nat.le_of_not_lt hlt)
      · obtain ⟨h1, h2, h3, h4⟩ := ih (j + 1) b (by simpa [oldestExpired, ht] using h)
        refine ⟨by omega, shift b h1 h2, h3, ?_⟩
        intro t' ht' h0
        rcases (by simpa using ht') with rfl | hm
        · exact absurd h0 ht
        · exact h4 t' hm h0

/-! ### One service (R251-R256) -/

theorem SharedTimer.expired_iff (t : SharedTimer) : t.expired = true ↔ t.armed = true ∧ t.rem = 0#24 := by
  simp [SharedTimer.expired]

/-- Everything one service can be: of the shared timer in GBN or CONN, or of the oldest expired slot in SR. -/
theorem TxWindow.serveOldest_cases (g : Bool) (rule : Config.SrSlide) (tw : TxWindow) (r : TxWindow × Event)
    (h : tw.serveOldest g rule = some r) :
    (tw.cfg.mode = .gbn ∧ tw.shared.armed = true ∧ tw.shared.rem = 0#24 ∧ r = tw.serveGbn) ∨
    (tw.cfg.mode = .conn ∧ tw.shared.armed = true ∧ tw.shared.rem = 0#24 ∧ r = tw.serveConn) ∨
    (tw.cfg.mode = .sr ∧ ∃ (j : Nat) (t : TimerSlot), tw.slots[j]? = some (some t) ∧ t.rem = 0#24 ∧ r = tw.serveSlot g rule j t ∧
      ∀ t' : TimerSlot, t' ∈ tw.units → t'.rem = 0#24 → (dist t'.seq tw.next).toNat ≤ (dist t.seq tw.next).toNat) := by
  unfold TxWindow.serveOldest at h
  split at h
  · simp at h
  · rename_i hm
    split at h
    · rename_i he
      have := (SharedTimer.expired_iff _).mp he
      exact .inl ⟨hm, this.1, this.2, by simpa using h.symm⟩
    · simp at h
  · rename_i hm
    split at h
    · rename_i he
      have := (SharedTimer.expired_iff _).mp he
      exact .inr (.inl ⟨hm, this.1, this.2, by simpa using h.symm⟩)
    · simp at h
  · rename_i hm
    simp only [Option.map_eq_some_iff] at h
    obtain ⟨b, hb, rfl⟩ := h
    obtain ⟨-, h2, h3, h4⟩ := oldestExpired_spec _ _ _ _ hb
    exact .inr (.inr ⟨hm, b.1, b.2, by simpa using h2, h3, rfl, h4⟩)

/-- Nothing is served while every timer is off. -/
theorem TxWindow.serveOldest_quiet (g : Bool) (rule : Config.SrSlide) (tw : TxWindow) (ha : tw.shared.armed = false)
    (hu : tw.units = []) : tw.serveOldest g rule = none := by
  unfold TxWindow.serveOldest
  split <;> simp [SharedTimer.expired, ha]
  exact (oldestExpired_eq_none _ _ _).mpr (by unfold TxWindow.units at hu; simp [hu])

/-! ### The loop (R251) -/

/-- What every service keeps, the arbiter keeps. -/
theorem arbitrateLoop_induct (P : TxWindow → List Event → Prop) (g : Bool) (rule : Config.SrSlide)
    (hstep : ∀ tw evt r, P tw evt → evt.length < Config.evtDepth → tw.serveOldest g rule = some r → P r.1 (evt ++ [r.2]))
    (n : Nat) (tw : TxWindow) (evt : List Event) (h : P tw evt) :
    P (arbitrateLoop g rule n tw evt).1 (arbitrateLoop g rule n tw evt).2 := by
  induction n generalizing tw evt with
  | zero => exact h
  | succ n ih =>
    simp only [arbitrateLoop]
    split
    · exact h
    · split
      · exact h
      · rename_i r hr
        exact ih _ _ (hstep _ _ _ h (by omega) hr)

/-- With enough rounds the arbiter ends with the FIFO full or nothing left to serve. -/
theorem arbitrateLoop_ends (g : Bool) (rule : Config.SrSlide) (n : Nat) (tw : TxWindow) (evt : List Event)
    (h : Config.evtDepth ≤ evt.length + n) :
    (arbitrateLoop g rule n tw evt).1.serveOldest g rule = none ∨ Config.evtDepth ≤ (arbitrateLoop g rule n tw evt).2.length := by
  induction n generalizing tw evt with
  | zero => exact .inr (by simpa [arbitrateLoop] using h)
  | succ n ih =>
    simp only [arbitrateLoop]
    split
    · exact .inr ‹_›
    · split
      · exact .inl ‹_›
      · exact ih _ _ (by simp only [List.length_append, List.length_singleton]; omega)

/-- Any number of rounds that reaches the loop's own end gives the same result. -/
theorem arbitrateLoop_rounds (g : Bool) (rule : Config.SrSlide) (n m : Nat) (tw : TxWindow) (evt : List Event)
    (hn : Config.evtDepth ≤ evt.length + n) (hm : Config.evtDepth ≤ evt.length + m) :
    arbitrateLoop g rule n tw evt = arbitrateLoop g rule m tw evt := by
  induction n generalizing m tw evt with
  | zero => cases m <;> simp [arbitrateLoop, show Config.evtDepth ≤ evt.length by omega]
  | succ n ih =>
    cases m with
    | zero => simp [arbitrateLoop, show Config.evtDepth ≤ evt.length by omega]
    | succ m =>
      simp only [arbitrateLoop]
      split
      · rfl
      · split
        · rfl
        · exact ih m _ _ (by simp only [List.length_append, List.length_singleton]; omega)
            (by simp only [List.length_append, List.length_singleton]; omega)

/-- Where nothing is to be served, the arbiter does nothing. -/
theorem arbitrateLoop_quiet (g : Bool) (rule : Config.SrSlide) (n : Nat) (tw : TxWindow) (evt : List Event)
    (h : tw.serveOldest g rule = none) : arbitrateLoop g rule n tw evt = (tw, evt) := by
  cases n with
  | zero => rfl
  | succ n => simp only [arbitrateLoop, h]; split <;> rfl

theorem State.arbitrate_quiet (s : State) (h : s.tw.serveOldest Config.giveupSlides Config.srSlide = none) : s.arbitrate = s := by
  simp [State.arbitrate, arbitrateLoop_quiet _ _ _ _ _ h]

/-! ### Stopped (R241) -/

/-- A service neither sets nor clears stopped. -/
theorem TxWindow.serveOldest_stopped (g : Bool) (rule : Config.SrSlide) (tw : TxWindow) (x : TxWindow × Event)
    (h : tw.serveOldest g rule = some x) : x.1.stopped = tw.stopped := by
  rcases tw.serveOldest_cases g rule x h with ⟨-, -, -, rfl⟩ | ⟨-, -, -, rfl⟩ | ⟨-, j, t, -, -, rfl, -⟩
  · unfold TxWindow.serveGbn; split <;> rfl
  · unfold TxWindow.serveConn; split <;> rfl
  · unfold TxWindow.serveSlot; split
    · dsimp only; split
      · obtain ⟨n, -, h⟩ := TxWindow.slideAt_eq rule t.seq { tw with slots := tw.slots.set j none, giveupCnt := tw.giveupCnt + 1#32 }
        rw [h]
      · rfl
    · rfl

/-- The arbiter neither sets nor clears stopped. -/
theorem State.arbitrate_stopped (s : State) : s.arbitrate.tw.stopped = s.tw.stopped :=
  arbitrateLoop_induct (fun tw _ => tw.stopped = s.tw.stopped) _ _
    (fun _ _ _ h _ hr => (TxWindow.serveOldest_stopped _ _ _ _ hr).trans h) _ _ _ rfl

end Sys2Proof.Machine
end

