-- ==== Sys2Proof/Laws/Decode.lean ====
section
/-! SUPPORT. The three fields of a command word put together and taken apart again (30_encoding.md R101). -/

namespace Sys2Proof

theorem opcField_join (n : BitVec 16) (f o : BitVec 8) : opcField (n ++ (f ++ o)) = o := by
  change BitVec.extractLsb' 0 8 (n ++ (f ++ o)) = o
  apply BitVec.eq_of_getLsbD_eq; intro i hi
  rw [BitVec.getLsbD_extractLsb', BitVec.getLsbD_append, BitVec.getLsbD_append]
  simp [hi, show i < 16 by omega]

theorem flagField_join (n : BitVec 16) (f o : BitVec 8) : flagField (n ++ (f ++ o)) = f := by
  change BitVec.extractLsb' 8 8 (n ++ (f ++ o)) = f
  apply BitVec.eq_of_getLsbD_eq; intro i hi
  rw [BitVec.getLsbD_extractLsb', BitVec.getLsbD_append, BitVec.getLsbD_append]
  simp [hi, show 8 + i < 16 by omega]

theorem lenField_join (n : BitVec 16) (f o : BitVec 8) : lenField (n ++ (f ++ o)) = n := by
  change BitVec.extractLsb' 16 16 (n ++ (f ++ o)) = n
  apply BitVec.eq_of_getLsbD_eq; intro i hi
  rw [BitVec.getLsbD_extractLsb', BitVec.getLsbD_append]
  simp [hi]

/-- A command word is its three fields. -/
theorem word_eq_fields (w : Word) : w = lenField w ++ (flagField w ++ opcField w) := by
  unfold lenField flagField opcField
  rw [BitVec.extractLsb'_append_extractLsb'_eq_extractLsb' (by decide),
    BitVec.extractLsb'_append_extractLsb'_eq_extractLsb' (by decide)]
  simp

/-- Two words with the same fields are the same word. -/
theorem word_ext (v w : Word) (ho : opcField v = opcField w) (hf : flagField v = flagField w) (hl : lenField v = lenField w) : v = w := by
  rw [word_eq_fields v, word_eq_fields w, ho, hf, hl]

@[simp] theorem opcField_encode (i : Instr) : opcField (encode i) = i.opcode := opcField_join _ _ _

@[simp] theorem flagField_encode (i : Instr) : flagField (encode i) = i.flags := flagField_join _ _ _

@[simp] theorem lenField_encode (i : Instr) : lenField (encode i) = i.lenBits := lenField_join _ _ _

/-- What decodeR answers. -/
theorem decodeR_eq (w : Word) (i : Instr) :
    decodeR w i = if flagField w = 0#8 ∧ lenField w = 0#16 then .ok i else .error .rsvd := by
  simp [decodeR, unlessReserved]

/-- What decodeL answers. -/
theorem decodeL_eq (w : Word) (mk : Nat → Instr) :
    decodeL w mk = if flagField w = 0#8 then .ok (mk (lenField w).toNat) else .error .rsvd := by
  simp [decodeL, unlessReserved]

/-- What decodeClr answers: the four selects, with every other bit above OPC reserved. -/
theorem decodeClr_eq (w : Word) :
    decodeClr w =
      if w.extractLsb' 12 20 = 0#20 then .ok (.clr (w.getLsbD 8) (w.getLsbD 9) (w.getLsbD 10) (w.getLsbD 11)) else .error .rsvd := by
  have h : ((flagField w).extractLsb' 4 4 = 0#4 ∧ lenField w = 0#16) ↔ w.extractLsb' 12 20 = 0#20 := by
    simp only [flagField, lenField, BitVec.toNat_eq, BitVec.extractLsb'_toNat, Nat.shiftRight_eq_div_pow, BitVec.toNat_ofNat]
    omega
  simp only [decodeClr, unlessReserved, Bool.and_eq_true, beq_iff_eq, h]
  simp [flagField]

/-- What decodeTwInit answers: the one select, with every other bit above OPC reserved. -/
theorem decodeTwInit_eq (w : Word) :
    decodeTwInit w = if w.extractLsb' 9 23 = 0#23 then .ok (.twInit (w.getLsbD 8)) else .error .rsvd := by
  have h : ((flagField w).extractLsb' 1 7 = 0#7 ∧ lenField w = 0#16) ↔ w.extractLsb' 9 23 = 0#23 := by
    simp only [flagField, lenField, BitVec.toNat_eq, BitVec.extractLsb'_toNat, Nat.shiftRight_eq_div_pow, BitVec.toNat_ofNat]
    omega
  simp only [decodeTwInit, unlessReserved, Bool.and_eq_true, beq_iff_eq, h]
  simp [flagField]

end Sys2Proof
end

