-- ==== Sys2Proof/Laws/Memory.lean ====
section
/-! SUPPORT. The two buffers: reading after writing, and the canonical form that every memory operation keeps. -/

namespace Sys2Proof.Machine

/-! ### One byte -/

theorem cellAt_eraseCell (cells : List Host.Cell) (a b : Nat) :
    cellAt (eraseCell a cells) b = if b = a then none else cellAt cells b := by
  induction cells with
  | nil => simp [eraseCell, cellAt]
  | cons c r ih =>
    unfold eraseCell at ih ⊢
    rw [List.filter_cons]
    by_cases hc : c.1 = a
    · subst hc
      by_cases hb : b = c.1
      · simp_all
      · simp_all [cellAt, Ne.symm hb]
    · by_cases hcb : c.1 = b
      · simp_all [cellAt]
      · simp_all [cellAt]

theorem cellAt_insertCell (cells : List Host.Cell) (a b : Nat) (v : Byte) :
    cellAt (insertCell a v cells) b = if b = a then some v else cellAt cells b := by
  induction cells with
  | nil => simp [insertCell, cellAt, eq_comm]
  | cons c r ih =>
    simp only [insertCell]
    by_cases h1 : a < c.1
    · simp [h1, cellAt, eq_comm]
    · by_cases h2 : c.1 = a
      · rw [if_neg h1, if_pos h2]
        by_cases hb : b = a
        · simp [cellAt, hb]
        · rw [if_neg hb, cellAt, cellAt, if_neg (Ne.symm hb), if_neg (by omega)]
      · simp only [h1, h2, if_false, cellAt, ih]
        by_cases hcb : c.1 = b
        · rw [if_pos hcb, if_neg (by omega), if_pos hcb]
        · rw [if_neg hcb, if_neg hcb]

@[simp] theorem Memory.setByte_powerOns (m : Memory) (a : Nat) (v : Byte) : (m.setByte a v).powerOns = m.powerOns := rfl

/-- Reading after writing one byte. -/
theorem Memory.byteAt_setByte (m : Memory) (a b : Nat) (v : Byte) :
    (m.setByte a v).byteAt b = if b = a then v else m.byteAt b := by
  unfold Memory.byteAt Memory.setByte Memory.unlisted
  by_cases hv : v = Config.powerOnByte m.powerOns a <;> by_cases h : b = a <;>
    simp [hv, h, cellAt_eraseCell, cellAt_insertCell]

/-! ### A run of bytes -/

@[simp] theorem Memory.setBytes_powerOns (m : Memory) (a : Nat) (bs : List Byte) : (m.setBytes a bs).powerOns = m.powerOns := by
  induction bs generalizing m a with
  | nil => rfl
  | cons b r ih => simp [Memory.setBytes, ih]

/-- A byte outside the bytes written reads as before. -/
theorem Memory.byteAt_setBytes_outside (m : Memory) (a b : Nat) (bs : List Byte) (h : b < a ∨ a + bs.length ≤ b) :
    (m.setBytes a bs).byteAt b = m.byteAt b := by
  induction bs generalizing m a with
  | nil => rfl
  | cons v r ih =>
    simp only [List.length_cons] at h
    rw [Memory.setBytes, ih _ _ (by omega), Memory.byteAt_setByte, if_neg (by omega)]

/-- A byte inside the bytes written reads as what was written. -/
theorem Memory.byteAt_setBytes_inside (m : Memory) (a i : Nat) (bs : List Byte) (h : i < bs.length) :
    (m.setBytes a bs).byteAt (a + i) = bs[i] := by
  induction bs generalizing m a i with
  | nil => simp at h
  | cons v r ih =>
    rw [Memory.setBytes]
    cases i with
    | zero => rw [Memory.byteAt_setBytes_outside _ _ _ _ (by omega), Memory.byteAt_setByte]; simp
    | succ i =>
      have := ih (m.setByte a v) (a + 1) i (by simpa using h)
      rw [show a + (i + 1) = a + 1 + i by omega, this]; rfl

@[simp] theorem Memory.bytes_length (m : Memory) (a n : Nat) : (m.bytes a n).length = n := by simp [Memory.bytes]

theorem Memory.bytes_getElem (m : Memory) (a n i : Nat) (h : i < (m.bytes a n).length) : (m.bytes a n)[i] = m.byteAt (a + i) := by
  simp [Memory.bytes]

/-- What was written is what is read back. -/
theorem Memory.bytes_setBytes (m : Memory) (a : Nat) (bs : List Byte) : (m.setBytes a bs).bytes a bs.length = bs := by
  apply List.ext_getElem
  · simp
  · intro i h1 h2
    rw [Memory.bytes_getElem, Memory.byteAt_setBytes_inside _ _ _ _ h2]

/-- Two memories that agree on some bytes read the same there. -/
theorem Memory.bytes_congr (m k : Memory) (a n : Nat) (h : ∀ i < n, m.byteAt (a + i) = k.byteAt (a + i)) : m.bytes a n = k.bytes a n := by
  simp only [Memory.bytes]
  exact List.map_congr_left fun i hi => h i (List.mem_range.mp hi)

/-- The bytes read without the first k of them. -/
theorem Memory.bytes_drop (m : Memory) (a n k : Nat) :
    (m.bytes a n).drop k = (List.range (n - k)).map fun i => m.byteAt (a + (k + i)) := by
  apply List.ext_getElem
  · simp
  · intro i h1 h2; simp [Memory.bytes]

/-- The first k of the bytes read. -/
theorem Memory.bytes_take (m : Memory) (a n k : Nat) (h : k ≤ n) : (m.bytes a n).take k = m.bytes a k := by
  apply List.ext_getElem
  · simp [h]
  · intro i h1 h2; simp [Memory.bytes]

/-! ### The canonical form -/

theorem risingFrom_weaken (cells : List Host.Cell) (k l : Nat) (hkl : l ≤ k) (h : risingFrom (some k) cells = true) :
    risingFrom (some l) cells = true := by
  cases cells with
  | nil => rfl
  | cons c r => simp_all [risingFrom]; omega

theorem risingFrom_none (cells : List Host.Cell) (lo : Option Nat) (h : risingFrom lo cells = true) : risingFrom none cells = true := by
  cases cells with
  | nil => rfl
  | cons c r => simp_all [risingFrom]

theorem risingFrom_eraseCell (cells : List Host.Cell) (a : Nat) (lo : Option Nat) (h : risingFrom lo cells = true) :
    risingFrom lo (eraseCell a cells) = true := by
  induction cells generalizing lo with
  | nil => simpa [eraseCell] using h
  | cons c r ih =>
    simp only [risingFrom, Bool.and_eq_true] at h
    have ih' := ih _ h.2
    unfold eraseCell at ih' ⊢
    by_cases hc : c.1 = a
    · rw [List.filter_cons_of_neg (by simp [hc])]
      cases lo with
      | none => exact risingFrom_none _ _ ih'
      | some l => exact risingFrom_weaken _ _ _ (by have := h.1; simp at this; omega) ih'
    · rw [List.filter_cons_of_pos (by simp [hc])]
      simp only [risingFrom, Bool.and_eq_true]
      exact ⟨h.1, ih'⟩

theorem risingFrom_insertCell (cells : List Host.Cell) (a : Nat) (v : Byte) (lo : Option Nat) (hlo : ∀ l, lo = some l → l < a)
    (h : risingFrom lo cells = true) : risingFrom lo (insertCell a v cells) = true := by
  induction cells generalizing lo with
  | nil =>
    cases lo with
    | none => rfl
    | some l => simpa [insertCell, risingFrom] using hlo l rfl
  | cons c r ih =>
    simp only [risingFrom, Bool.and_eq_true] at h
    have hal : (lo.all fun l => decide (l < a)) = true := by
      cases lo with
      | none => rfl
      | some l => simpa using hlo l rfl
    simp only [insertCell]
    split
    · rename_i hac
      simp [risingFrom, hal, hac, h.2]
    · split
      · rename_i hca
        simp only [risingFrom, Bool.and_eq_true]
        exact ⟨hal, hca ▸ h.2⟩
      · simp only [risingFrom, Bool.and_eq_true]
        exact ⟨h.1, ih (some c.1) (by intro l hl; cases hl; omega) h.2⟩

theorem mem_insertCell (cells : List Host.Cell) (a : Nat) (v : Byte) (c : Host.Cell) (h : c ∈ insertCell a v cells) :
    c = (a, v) ∨ c ∈ cells := by
  induction cells with
  | nil => simpa [insertCell] using h
  | cons d r ih =>
    simp only [insertCell] at h
    split at h
    · simpa using h
    · split at h
      · rcases List.mem_cons.mp h with h | h
        · exact .inl h
        · exact .inr (List.mem_cons_of_mem _ h)
      · rcases List.mem_cons.mp h with h | h
        · exact .inr (h ▸ List.mem_cons_self ..)
        · rcases ih h with h | h
          · exact .inl h
          · exact .inr (List.mem_cons_of_mem _ h)

/-- A byte written keeps the canonical form. -/
theorem Memory.setByte_wf (m : Memory) (a : Nat) (v : Byte) (h : m.wf = true) : (m.setByte a v).wf = true := by
  simp only [Memory.wf, Bool.and_eq_true, List.all_eq_true] at h ⊢
  by_cases hv : v = m.unlisted a
  · refine ⟨?_, ?_⟩
    · simpa [Memory.setByte, hv] using risingFrom_eraseCell _ a _ h.1
    · intro c hc
      have : c ∈ m.cells := by
        simp only [Memory.setByte, hv, if_true, eraseCell] at hc
        exact List.mem_of_mem_filter hc
      exact h.2 c this
  · refine ⟨?_, ?_⟩
    · simpa [Memory.setByte, hv] using risingFrom_insertCell _ a v none (by simp) h.1
    · intro c hc
      have hc' : c ∈ insertCell a v m.cells := by simpa [Memory.setByte, hv] using hc
      rcases mem_insertCell _ _ _ _ hc' with rfl | hm
      · simpa [Memory.unlisted] using hv
      · exact h.2 c hm

/-- Bytes written keep the canonical form. -/
theorem Memory.setBytes_wf (m : Memory) (a : Nat) (bs : List Byte) (h : m.wf = true) : (m.setBytes a bs).wf = true := by
  induction bs generalizing m a with
  | nil => exact h
  | cons b r ih => exact ih _ _ (m.setByte_wf a b h)

/-- The buffers after a hardware reset are in canonical form. -/
theorem Memory.powerOn_wf (m : Memory) : m.powerOn.wf = true := rfl

/-- The buffers of the reset state are in canonical form. -/
theorem reset_mem_wf : State.reset.mem.wf = true := rfl

/-- A byte written inside the buffers leaves nothing listed outside them. -/
theorem Memory.setByte_inBuffers (m : Memory) (a : Nat) (v : Byte) (ha : 0x400 ≤ a ∧ a < 0xC00) (h : m.inBuffers) :
    (m.setByte a v).inBuffers := by
  intro c hc
  simp only [Memory.setByte] at hc
  split at hc
  · exact h c (List.mem_of_mem_filter hc)
  · rcases mem_insertCell _ _ _ _ hc with rfl | hm
    · exact ha
    · exact h c hm

/-- Bytes written inside the buffers leave nothing listed outside them. -/
theorem Memory.setBytes_inBuffers (m : Memory) (a : Nat) (bs : List Byte) (hlo : 0x400 ≤ a) (hhi : a + bs.length ≤ 0xC00)
    (h : m.inBuffers) : (m.setBytes a bs).inBuffers := by
  induction bs generalizing m a with
  | nil => exact h
  | cons b r ih =>
    simp only [List.length_cons] at hhi
    exact ih _ _ (by omega) (by omega) (m.setByte_inBuffers a b (by omega) h)

end Sys2Proof.Machine
end

