-- ==== Sys2Proof/Laws/Reorder.lean ====
section
/-! SUPPORT. The two drains of the reorder buffer and the outcome of RB_PUSH: what each can be, said once (41_reorder.md R180, R186, R193). -/

namespace Sys2Proof.Machine

/-! ### The SR drain (R186, R187) -/

/-- The drained entries carry consecutive sequences from x on, each a valid slot's, and the drain ends one past the last of them. -/
theorem srDrain_spec (slots : List (Option RbSlot)) (n : Nat) (x : Word) :
    (srDrain slots n x).2 = x + BitVec.ofNat 32 (srDrain slots n x).1.length ∧
    (∀ (k : Nat) (e : DlvEntry), (srDrain slots n x).1[k]? = some e →
      e.seq = x + BitVec.ofNat 32 k ∧ ({ seq := e.seq, payload := e.payload } : RbSlot) ∈ slots.reduceOption) ∧
    (srDrain slots n x).1.length ≤ n ∧
    ((srDrain slots n x).1.length < n → findSeq (srDrain slots n x).2 slots = none) := by
  induction n generalizing x with
  | zero => simp [srDrain]
  | succ n ih =>
    simp only [srDrain]
    split
    · rename_i hf
      simp [hf]
    · rename_i r hf
      obtain ⟨h1, h2, h3, h4⟩ := ih (x + 1#32)
      obtain ⟨hm, hs⟩ := findSeq_mem _ _ _ hf
      refine ⟨?_, ?_, by simpa using h3, fun h => h4 (by simpa using h)⟩
      · simp only [h1, List.length_cons]; bv_omega
      · intro k e he
        cases k with
        | zero =>
          simp only [List.getElem?_cons_zero, Option.some.injEq] at he
          subst he; subst hs; exact ⟨by simp, hm⟩
        | succ k =>
          obtain ⟨a, b⟩ := h2 k e (by simpa using he)
          exact ⟨by rw [a]; bv_omega, b⟩

/-! ### The CONN drain (R193) -/

/-- Each drained entry is a valid slot's and starts at the byte after the entry before it; the drain ends at the byte after the last. -/
theorem connDrain_spec (slots : List (Option RbSlot)) (n : Nat) (x : Word) :
    (∀ e, (connDrain slots n x).1.head? = some e → e.seq = x) ∧
    (∀ e, (connDrain slots n x).1.getLast? = some e → (connDrain slots n x).2 = afterPayload e.seq e.payload) ∧
    ((connDrain slots n x).1 = [] → (connDrain slots n x).2 = x) ∧
    (∀ e ∈ (connDrain slots n x).1, ({ seq := e.seq, payload := e.payload } : RbSlot) ∈ slots.reduceOption) ∧
    (∀ (k : Nat) (e e' : DlvEntry), (connDrain slots n x).1[k]? = some e → (connDrain slots n x).1[k + 1]? = some e' →
      e'.seq = afterPayload e.seq e.payload) ∧
    (connDrain slots n x).1.length ≤ n ∧
    ((connDrain slots n x).1.length < n → findSeq (connDrain slots n x).2 slots = none) := by
  induction n generalizing x with
  | zero => simp [connDrain]
  | succ n ih =>
    simp only [connDrain]
    split
    · rename_i hf; simp [hf]
    · rename_i r hf
      obtain ⟨h1, h2, h3, h4, h5, h6, h7⟩ := ih (afterPayload x r.payload)
      obtain ⟨hm, hs⟩ := findSeq_mem _ _ _ hf
      refine ⟨by simp, ?_, by simp, ?_, ?_, by simpa using h6, fun h => h7 (by simpa using h)⟩
      · intro e he
        cases hd : (connDrain slots n (afterPayload x r.payload)).1 with
        | nil =>
          rw [hd] at he
          simp only [List.getLast?_singleton, Option.some.injEq] at he
          subst he; exact h3 hd
        | cons f t =>
          rw [hd, List.getLast?_cons_cons] at he
          exact h2 e (by rw [hd]; exact he)
      · intro e he
        rcases List.mem_cons.mp he with rfl | he
        · subst hs; exact hm
        · exact h4 e he
      · intro k e e' he he'
        cases k with
        | zero =>
          simp only [List.getElem?_cons_zero, Option.some.injEq] at he
          subst he
          exact h1 e' (by simpa [List.head?_eq_getElem?] using he')
        | succ k => exact h5 k e e' (by simpa using he) (by simpa using he')

/-! ### RB_PUSH (R180) -/

/-- A verdict whose deliveries fit is the outcome of the push. -/
theorem pushVerdict_fits (v : Verdict) (s : State) (h : s.dlv.length + v.deliver.length ≤ Config.dlvDepth) :
    pushVerdict v s = pushOutcome s v.act.bits v.ack v.deliver v.rb := by
  rw [pushVerdict, if_neg (Nat.not_lt.mpr h)]; rfl

/-- A verdict whose deliveries do not fit is DLV_ROOM, and nothing else changes. -/
theorem pushVerdict_full (v : Verdict) (s : State) (h : Config.dlvDepth < s.dlv.length + v.deliver.length) :
    pushVerdict v s = .next (s.failedWith 7#4) := by
  rw [pushVerdict, if_pos h]; rfl

/-- A verdict that delivers nothing and leaves RB alone. -/
theorem pushVerdict_only (rb : Reorder) (a : Action) (k : Option Word) (s : State) (h : s.dlv.length ≤ Config.dlvDepth) :
    pushVerdict (rb.only a k) s = pushOutcome s a.bits k [] rb := pushVerdict_fits _ _ (by simpa [Reorder.only] using h)

/-- Everything RB_PUSH answers: a failure, or the mode rule's verdict with all of its deliveries and its commit. -/
theorem execRbPush_cases (s t : State) (h : execRbPush s = .next t) :
    (∃ c : ErrCode, t = s.raise c) ∨
    ∃ l : Latch, s.latch = some l ∧ s.rb.mode ≠ .off ∧ fmtFits s.rb.mode l.fmt = true ∧
      s.dlv.length + (modeRule (l.type == Config.typeData) s.rb l).deliver.length ≤ Config.dlvDepth ∧
      t = ({ s with
            dlv := s.dlv ++ (modeRule (l.type == Config.typeData) s.rb l).deliver,
            rb := (modeRule (l.type == Config.typeData) s.rb l).rb,
            latch := none } : State).succeed (modeRule (l.type == Config.typeData) s.rb l).results := by
  unfold execRbPush at h
  split at h
  · cases h; exact .inl ⟨_, rfl⟩
  · rename_i hm
    split at h
    · cases h; exact .inl ⟨_, rfl⟩
    · rename_i l hl
      split at h
      · rename_i hf
        unfold pushVerdict at h
        split at h
        · cases h; exact .inl ⟨_, rfl⟩
        · rename_i hd
          cases h; exact .inr ⟨l, hl, hm, hf, by omega, rfl⟩
      · cases h; exact .inl ⟨_, rfl⟩

end Sys2Proof.Machine
end

