-- ==== Sys2Proof/Laws/Exec.lean ====
section
/-! SUPPORT. Everything one step, one completion, one host write and one codec or window command can do, said once each, for the
proofs that hold of every step. -/

namespace Sys2Proof.Machine

/-! ### The step -/

/-- Everything a step can be: the engine's turn, or a stimulus of another agent. -/
theorem step_next_cases (s t : State) (h : step s = .next t) :
    (∃ rest, complete { s with trace := rest } = .next t ∧ (s.trace = .engine :: rest ∨ s.trace = [] ∧ rest = [])) ∨
    ∃ (x : Stimulus) (rest : List Stimulus), s.trace = x :: rest ∧
      ((∃ size a, x = .read size a ∧ t = ({ s with trace := rest } : State).hostRead size a.toNat) ∨
       (∃ size a w, x = .write size a w ∧ t = ({ s with trace := rest } : State).hostWrite size a.toNat w) ∨
       (x = .tick ∧ t = ({ s with trace := rest } : State).tick) ∨
       (x = .hwReset ∧ t = ({ s with trace := rest } : State).hwReset)) := by
  unfold step at h
  cases htr : s.trace with
  | nil =>
    rw [htr] at h
    refine .inl ⟨[], ?_, .inr ⟨rfl, rfl⟩⟩
    rwa [← htr]
  | cons x rest =>
    rw [htr] at h
    cases x with
    | engine => exact .inl ⟨rest, h, .inl rfl⟩
    | read size a => cases h; exact .inr ⟨_, rest, rfl, .inl ⟨size, a, rfl, rfl⟩⟩
    | write size a w => cases h; exact .inr ⟨_, rest, rfl, .inr (.inl ⟨size, a, w, rfl, rfl⟩)⟩
    | tick => cases h; exact .inr ⟨_, rest, rfl, .inr (.inr (.inl ⟨rfl, rfl⟩))⟩
    | hwReset => cases h; exact .inr ⟨_, rest, rfl, .inr (.inr (.inr ⟨rfl, rfl⟩))⟩

/-- Everything the engine's turn can be: nothing, a command's own rule or a decode error, with the arbiter after it. -/
theorem complete_next_cases (s t : State) (h : complete s = .next t) :
    (s.pending = none ∧ t = s) ∨
    ∃ w, s.pending = some w ∧
      ((∃ i u, decode w = .ok i ∧ exec i { s with pending := none } = .next u ∧ t = u.arbitrate) ∨
       ∃ e, decode w = .error e ∧ t = (({ s with pending := none } : State).raise (errOfDecode e)).arbitrate) := by
  unfold complete at h
  cases hp : s.pending with
  | none => rw [hp] at h; cases h; exact .inl ⟨rfl, rfl⟩
  | some w =>
    rw [hp] at h
    refine .inr ⟨w, rfl, ?_⟩
    cases hd : decode w with
    | error e =>
      simp only [runWord, hd] at h
      cases h; exact .inr ⟨e, rfl, rfl⟩
    | ok i =>
      simp only [runWord, hd] at h
      cases hx : exec i { s with pending := none } with
      | next u => rw [hx] at h; cases h; exact .inl ⟨i, u, rfl, hx, rfl⟩
      | fault r => rw [hx] at h; cases h
      | refused r => rw [hx] at h; cases h

/-! ### Host accesses -/

/-- Everything a host read can do: set what the port returns, or be refused. -/
theorem hostRead_cases (s : State) (size : AccessSize) (a : Nat) :
    (∃ v, s.hostRead size a = { s with rdata := v }) ∨ s.hostRead size a = { s with accErr := true, rdata := 0#32 } := by
  unfold State.hostRead
  split
  · exact .inl ⟨_, rfl⟩
  · exact .inr rfl

/-- Everything a host write can do: nothing, be refused, store to IBUF, or write a register. -/
theorem hostWrite_cases (s : State) (size : AccessSize) (a : Nat) (w : Word) :
    s.hostWrite size a w = s ∨ s.hostWrite size a w = s.refuse ∨
    (∃ bs : List Byte, s.pending = none ∧ 0x400 ≤ a ∧ a + bs.length ≤ 0x800 ∧
      s.hostWrite size a w = { s with mem := s.mem.setBytes a bs }) ∨
    ∃ r, size = .word ∧ regAt a = some r ∧ s.hostWrite size a w = s.writeReg w r := by
  have ib : ∀ bs : List Byte, 0x400 ≤ a → a + bs.length ≤ 0x800 → s.writeIbuf a bs = s.refuse ∨
      (s.pending = none ∧ s.writeIbuf a bs = { s with mem := s.mem.setBytes a bs }) := by
    intro bs _ _
    unfold State.writeIbuf State.unlessBusy
    cases hp : s.pending with
    | none => exact .inr ⟨rfl, by simp [State.busy, hp]⟩
    | some c => exact .inl (by simp [State.busy, hp])
  cases size with
  | byte =>
    simp only [State.hostWrite, regionOf]
    by_cases h1 : a < 0x400
    · simp [h1]
    · by_cases h2 : a < 0x800
      · simp only [h1, h2, if_false, if_true]
        rcases ib [w.extractLsb' 0 8] (by omega) (by simp only [List.length_singleton]; omega) with h | h
        · exact .inr (.inl h)
        · exact .inr (.inr (.inl ⟨_, h.1, by omega, by simp only [List.length_singleton]; omega, h.2⟩))
      · by_cases h3 : a < 0xC00 <;> simp [h1, h2, h3]
  | word =>
    simp only [State.hostWrite, regionOf]
    by_cases h0 : a % 4 = 0
    · by_cases h1 : a < 0x400
      · simp only [h0, h1, if_true]
        cases hr : regAt a with
        | none => exact .inl rfl
        | some r => exact .inr (.inr (.inr ⟨r, by simp, rfl, rfl⟩))
      · by_cases h2 : a < 0x800
        · simp only [h0, h1, h2, if_false, if_true]
          rcases ib (lanes w) (by omega) (by simp only [lanes_length]; omega) with h | h
          · exact .inr (.inl h)
          · exact .inr (.inr (.inl ⟨_, h.1, by omega, by simp only [lanes_length]; omega, h.2⟩))
        · by_cases h3 : a < 0xC00 <;> simp [h0, h1, h2, h3]
    · simp [h0]

theorem regAt_twCfg (a : Nat) (h : regAt a = some .twCfg) : a = 0x050 := by
  unfold regAt at h; split at h <;> first | rfl | cases h

theorem regAt_ctrl (a : Nat) (h : regAt a = some .ctrl) : a = 0x010 := by
  unfold regAt at h; split at h <;> first | rfl | cases h

/-- A register write other than one of TW_CFG or CTRL leaves stopped as it was. -/
theorem writeReg_stopped (s : State) (w : Word) (r : Reg) (h1 : r ≠ .twCfg) (h2 : r ≠ .ctrl) :
    (s.writeReg w r).tw.stopped = s.tw.stopped := by
  cases r with
  | twCfg => exact absurd rfl h1
  | ctrl => exact absurd rfl h2
  | evtPop => simp only [State.writeReg, State.popEvent]; split <;> [rfl; exact State.arbitrate_stopped _]
  | cmd => simp only [State.writeReg, State.writeCmd]; split <;> rfl
  | arg0 | arg1 | arg2 | arg3 | twTimeout | rbCfg => simp only [State.writeReg, State.unlessBusy]; split <;> rfl
  | _ => rfl

/-! ### Commands: a failure, or the effect on success -/

/-- Everything ENC_FRAME does. -/
theorem execEncFrame_cases (len : Nat) (s t : State) (h : execEncFrame len s = .next t) :
    (∃ c : ErrCode, t = s.raise c) ∨ ∃ r bs, len ≤ 1015 ∧ bs.length = 9 + len ∧ t = (s.putObuf bs).succeed r := by
  unfold execEncFrame at h
  split at h
  · cases h; exact .inl ⟨_, rfl⟩
  · cases h
    refine .inr ⟨_, _, by omega, ?_, rfl⟩
    simp [frameBytes, frameHead, State.ibuf]; omega

/-- Everything ENC_SEG does. -/
theorem execEncSeg_cases (len : Nat) (s t : State) (h : execEncSeg len s = .next t) :
    (∃ c : ErrCode, t = s.raise c) ∨ ∃ r bs, len ≤ 1003 ∧ bs.length = 21 + len ∧ t = (s.putObuf bs).succeed r := by
  unfold execEncSeg at h
  split at h
  · cases h; exact .inl ⟨_, rfl⟩
  · cases h
    refine .inr ⟨_, _, by omega, ?_, rfl⟩
    simp [segHead, State.ibuf]; omega

/-- Everything DEC_FRAME does. -/
theorem execDecFrame_cases (len : Nat) (s t : State) (h : execDecFrame len s = .next t) :
    (∃ c : ErrCode, t = s.raise c) ∨ (len < 9 ∧ ∃ r, t = ({ s with latch := none } : State).succeed r) ∨
    ∃ (r : Results) (l : Latch) (p : List Byte), 9 ≤ len ∧ len ≤ 1024 ∧ l.fmt = .frame ∧ l.payload = p ∧ p.length = len - 9 ∧
      t = ({ s.putObuf p with latch := some l } : State).succeed r := by
  unfold execDecFrame at h
  split at h
  · cases h; exact .inl ⟨_, rfl⟩
  · split at h
    · rename_i hs
      cases h; exact .inr (.inl ⟨hs, _, rfl⟩)
    · rename_i h1 h2
      cases h
      refine .inr (.inr ⟨_, _, _, Nat.le_of_not_lt h2, by omega, ?_, ?_, ?_, rfl⟩)
      · rfl
      · rfl
      · simp [State.ibuf]

/-- Everything DEC_SEG does. -/
theorem execDecSeg_cases (len : Nat) (s t : State) (h : execDecSeg len s = .next t) :
    (∃ c : ErrCode, t = s.raise c) ∨ (len < 21 ∧ ∃ r, t = ({ s with latch := none } : State).succeed r) ∨
    ∃ (r : Results) (l : Latch) (p : List Byte), 21 ≤ len ∧ len ≤ 1024 ∧ l.fmt = .seg ∧ l.payload = p ∧ p.length = len - 21 ∧
      t = ({ s.putObuf p with latch := some l } : State).succeed r := by
  unfold execDecSeg at h
  split at h
  · cases h; exact .inl ⟨_, rfl⟩
  · split at h
    · rename_i hs
      cases h; exact .inr (.inl ⟨hs, _, rfl⟩)
    · rename_i h1 h2
      cases h
      refine .inr (.inr ⟨_, _, _, Nat.le_of_not_lt h2, by omega, ?_, ?_, ?_, rfl⟩)
      · rfl
      · rfl
      · simp [State.ibuf]

/-- Everything RB_SETEXP does. -/
theorem execRbSetexp_cases (s t : State) (h : execRbSetexp s = .next t) :
    (∃ c : ErrCode, t = s.raise c) ∨ ∃ r, t = ({ s with rb := s.rb.setExp s.argWord } : State).succeed r := by
  unfold execRbSetexp at h
  split at h <;> cases h
  · exact .inl ⟨_, rfl⟩
  · exact .inr ⟨_, rfl⟩

/-- Everything DLV_POP does. -/
theorem execDlvPop_cases (s t : State) (h : execDlvPop s = .next t) :
    (∃ c : ErrCode, t = s.raise c) ∨
    ∃ e q r, s.dlv = e :: q ∧ t = (({ s with dlv := q } : State).putObuf e.payload).succeed r := by
  unfold execDlvPop at h
  cases hd : s.dlv with
  | nil => rw [hd] at h; cases h; exact .inl ⟨_, rfl⟩
  | cons e q => rw [hd] at h; cases h; exact .inr ⟨e, q, _, rfl, rfl⟩

/-- Everything TW_ADMIT does where it does not stop: a failure, or an admission in GBN or SR into a window with room. -/
theorem execTwAdmit_cases (s t : State) (h : execTwAdmit s = .next t) :
    (∃ c : ErrCode, t = s.raise c) ∨
    (s.tw.stopped = false ∧ s.tw.abort = false ∧ s.tw.outstanding.toNat < s.tw.cfg.n.toNat ∧ ∃ r,
      (s.tw.cfg.mode = .gbn ∧ t = ({ s with tw := s.tw.admitGbn } : State).succeed r) ∨
      (s.tw.cfg.mode = .sr ∧ ∃ j, firstFree s.tw.slots = some j ∧ (s.tw.admitSr j).overSpan = false ∧
        t = ({ s with tw := s.tw.admitSr j } : State).succeed r)) := by
  unfold execTwAdmit at h
  split at h
  · cases h; exact .inl ⟨_, rfl⟩
  rename_i hm
  split at h
  · cases h; exact .inl ⟨_, rfl⟩
  rename_i hst
  split at h
  · cases h; exact .inl ⟨_, rfl⟩
  rename_i hab
  split at h
  · cases h; exact .inl ⟨_, rfl⟩
  rename_i hn
  split at h
  · rename_i hg
    cases h
    exact .inr ⟨by simpa using hst, by simpa using hab, by omega, _, .inl ⟨hg, rfl⟩⟩
  rename_i hg
  have hsr : s.tw.cfg.mode = .sr := by by_contra hc; exact hm ⟨hg, hc⟩
  split at h
  · cases h; exact .inl ⟨_, rfl⟩
  rename_i j hj
  split at h
  · cases h
  rename_i ho
  cases h
  exact .inr ⟨by simpa using hst, by simpa using hab, by omega, _, .inr ⟨hsr, j, hj, by simpa using ho, rfl⟩⟩

/-- Everything TW_ACK does. -/
theorem execTwAck_cases (s t : State) (h : execTwAck s = .next t) :
    (∃ c : ErrCode, t = s.raise c) ∨
    (s.tw.stopped = false ∧ s.tw.abort = false ∧ ∃ r,
      (s.tw.cfg.mode = .gbn ∧ t = ({ s with tw := (s.tw.gbnAck s.argWord).2 } : State).succeed r) ∨
      (s.tw.cfg.mode = .sr ∧ t = ({ s with tw := (s.tw.srAck Config.srSlide s.argWord).2 } : State).succeed r)) := by
  unfold execTwAck at h
  split at h
  · cases h; exact .inl ⟨_, rfl⟩
  rename_i hm
  split at h
  · cases h; exact .inl ⟨_, rfl⟩
  rename_i hst
  split at h
  · cases h; exact .inl ⟨_, rfl⟩
  rename_i hab
  split at h
  · rename_i hg
    cases h
    exact .inr ⟨by simpa using hst, by simpa using hab, _, .inl ⟨hg, rfl⟩⟩
  · rename_i hg
    have hsr : s.tw.cfg.mode = .sr := by by_contra hc; exact hm ⟨hg, hc⟩
    cases h
    exact .inr ⟨by simpa using hst, by simpa using hab, _, .inr ⟨hsr, rfl⟩⟩

/-- Everything TW_ARM does. -/
theorem execTwArm_cases (s t : State) (h : execTwArm s = .next t) :
    (∃ c : ErrCode, t = s.raise c) ∨
    (s.tw.cfg.mode = .conn ∧ s.tw.stopped = false ∧ ∃ r,
      t = ({ s with tw := { s.tw with
        ptag := s.argWord, retry := 0#8, shared := SharedTimer.armedWith (s.tw.est.rto.setWidth 24) } } : State).succeed r) := by
  unfold execTwArm at h
  split at h
  · cases h; exact .inl ⟨_, rfl⟩
  rename_i hm
  split at h
  · cases h; exact .inl ⟨_, rfl⟩
  rename_i hst
  cases h
  exact .inr ⟨by simpa using hm, by simpa using hst, _, rfl⟩

/-- Everything TW_CANCEL does. -/
theorem execTwCancel_cases (s t : State) (h : execTwCancel s = .next t) :
    (∃ c : ErrCode, t = s.raise c) ∨
    (s.tw.cfg.mode = .conn ∧ ∃ r, t = ({ s with tw := { s.tw with shared := SharedTimer.off } } : State).succeed r) := by
  unfold execTwCancel at h
  split at h
  · cases h; exact .inl ⟨_, rfl⟩
  rename_i hm
  cases h
  exact .inr ⟨by simpa using hm, _, rfl⟩

end Sys2Proof.Machine
end

