-- ==== Sys2Proof/Laws/PerInstr.lean ====
section
/-! SUPPORT. One statement for every command, one lemma a constructor: the word the encoder writes lies in the command's own row of
spec/opcode_table.json. -/

namespace Sys2Proof.Laws.TableRow

/-- The mask and the match of a command's row in spec/opcode_table.json. -/
def row : Instr → Word × Word
  | .nop => (0xFFFFFFFF#32, 0x00000000#32)
  | .clr _ _ _ _ => (0xFFFFF0FF#32, 0x00000001#32)
  | .encFrame _ => (0x0000FFFF#32, 0x00000010#32)
  | .decFrame _ => (0x0000FFFF#32, 0x00000011#32)
  | .encSeg _ => (0x0000FFFF#32, 0x00000012#32)
  | .decSeg _ => (0x0000FFFF#32, 0x00000013#32)
  | .rbPush => (0xFFFFFFFF#32, 0x00000020#32)
  | .rbSetexp => (0xFFFFFFFF#32, 0x00000021#32)
  | .dlvPop => (0xFFFFFFFF#32, 0x00000022#32)
  | .twInit _ => (0xFFFFFEFF#32, 0x00000030#32)
  | .twAdmit => (0xFFFFFFFF#32, 0x00000031#32)
  | .twAck => (0xFFFFFFFF#32, 0x00000032#32)
  | .twArm => (0xFFFFFFFF#32, 0x00000033#32)
  | .twCancel => (0xFFFFFFFF#32, 0x00000034#32)
  | .twStop => (0xFFFFFFFF#32, 0x00000035#32)
  | .rtoSample => (0xFFFFFFFF#32, 0x00000036#32)

/-- The command's word matches its row of the opcode table. -/
def Statement (i : Instr) : Prop := encode i &&& (row i).1 = (row i).2

/-- A word whose low half is given, under the mask of a CMD-L row. -/
theorem low_half (n : BitVec 16) (f o : BitVec 8) (m : Word) (h : f ++ o = m.extractLsb' 0 16) (hm : m.extractLsb' 16 16 = 0#16) :
    (n ++ (f ++ o) : Word) &&& 0x0000FFFF#32 = m := by
  rw [h]
  apply BitVec.eq_of_getLsbD_eq; intro i hi
  have h32 : (0x0000FFFF#32).getLsbD i = decide (i < 16) := by
    revert i; decide
  rw [BitVec.getLsbD_and, h32]
  by_cases hlt : i < 16
  · have : (n ++ m.extractLsb' 0 16 : BitVec (16 + 16)).getLsbD i = m.getLsbD i := by
      rw [BitVec.getLsbD_append]; simp [hlt]
    simpa [hlt] using this
  · have := congrArg (fun v => v.getLsbD (i - 16)) hm
    simp only [BitVec.getLsbD_extractLsb'] at this
    simp only [hlt, decide_false, Bool.and_false]
    simpa [show i - 16 < 16 by omega, show 16 + (i - 16) = i by omega] using this.symm

theorem nop : Statement .nop := by unfold Statement; decide
theorem clr (l d e c : Bool) : Statement (.clr l d e c) := by
  unfold Statement; revert l d e c; decide
theorem encFrame (len : Nat) : Statement (.encFrame len) :=
  low_half (BitVec.ofNat 16 len) 0#8 0x10#8 0x00000010#32 (by decide) (by decide)
theorem decFrame (len : Nat) : Statement (.decFrame len) :=
  low_half (BitVec.ofNat 16 len) 0#8 0x11#8 0x00000011#32 (by decide) (by decide)
theorem encSeg (len : Nat) : Statement (.encSeg len) :=
  low_half (BitVec.ofNat 16 len) 0#8 0x12#8 0x00000012#32 (by decide) (by decide)
theorem decSeg (len : Nat) : Statement (.decSeg len) :=
  low_half (BitVec.ofNat 16 len) 0#8 0x13#8 0x00000013#32 (by decide) (by decide)
theorem rbPush : Statement .rbPush := by unfold Statement; decide
theorem rbSetexp : Statement .rbSetexp := by unfold Statement; decide
theorem dlvPop : Statement .dlvPop := by unfold Statement; decide
theorem twInit (r : Bool) : Statement (.twInit r) := by unfold Statement; revert r; decide
theorem twAdmit : Statement .twAdmit := by unfold Statement; decide
theorem twAck : Statement .twAck := by unfold Statement; decide
theorem twArm : Statement .twArm := by unfold Statement; decide
theorem twCancel : Statement .twCancel := by unfold Statement; decide
theorem twStop : Statement .twStop := by unfold Statement; decide
theorem rtoSample : Statement .rtoSample := by unfold Statement; decide

end Sys2Proof.Laws.TableRow
end

