-- ==== Sys2Proof/Tests/Slice0.lean ====
section
/-! SUPPORT. The model's own tests: ill-formed terms refused, one word of every command decoded, the vectors of spec/95_test_vectors.md
that one step can show, and for every statement with hypotheses a state and operands that meet them. -/

namespace Sys2Proof.Tests

open Sys2Proof Sys2Proof.Machine

/-! ### Small states -/

/-- The state an outcome leads to, tested. -/
def leads (o : Host.Outcome State Fault Refusal) (p : State → Bool) : Bool :=
  match o with
  | .next t => p t
  | _ => false

/-- The six results a command left, tested. -/
def answers (o : Host.Outcome State Fault Refusal) (a b c d e f : Word) : Bool :=
  leads o fun t => t.err == false && t.res == { r0 := a, r1 := b, r2 := c, r3 := d, r4 := e, r5 := f }

/-- The error a command left, tested. -/
def fails (o : Host.Outcome State Fault Refusal) (c : BitVec 4) : Bool := leads o fun t => t.err && t.errcode == c

/-- TW just after a TW_CFG write. -/
def twOf (m : Mode) (n maxRetries : BitVec 8) (limit : Bool := false) : TxWindow :=
  { TxWindow.reset with cfg := { mode := m, n := n, maxRetries := maxRetries, connLimit := limit } }

/-- A pool of TW slots with units in its first places. -/
def pool (l : List TimerSlot) : List (Option TimerSlot) := l.map some ++ List.replicate (64 - l.length) none

/-- A pool of RB slots with units in its first places. -/
def rbPool (l : List RbSlot) : List (Option RbSlot) := l.map some ++ List.replicate (32 - l.length) none

/-- RB in a mode, with an expected sequence and some buffered units. -/
def rbOf (m : Mode) (n : BitVec 8) (e : Word) (l : List RbSlot) : Reorder := { mode := m, n := n, exp := e, slots := rbPool l }

/-- A unit of SR that has run a while. -/
def unit (q : Word) (r : BitVec 24) (k : BitVec 8) : TimerSlot := { seq := q, rem := r, retries := k }

/-- A decoded frame. -/
def frameLatch (ok : Bool) (t : Byte) (q : Word) (p : List Byte) : Latch :=
  { fmt := .frame, ok := ok, type := t, seq := q, ack := 0#32, flags := 0#8, window := 0#16, reserved := 0#16, payload := p }

/-- A decoded segment. -/
def segLatch (ok : Bool) (q : Word) (p : List Byte) : Latch :=
  { fmt := .seg, ok := ok, type := 0#8, seq := q, ack := 0#32, flags := 0#8, window := 0#16, reserved := 0#16, payload := p }

/-- The state after reset with a TW. -/
def withTw (tw : TxWindow) : State := { State.reset with tw := tw }

/-- The state after reset with an RB and a latch. -/
def withRb (rb : Reorder) (l : Option Latch) : State := { State.reset with rb := rb, latch := l }

/-- The state with ARG0 written. -/
def argd (s : State) (w : Word) : State := { s with args := { s.args with arg0 := w } }

/-- Bytes in IBUF from its first byte on, as listed cells. -/
def withIbuf (bs : List Byte) : State :=
  { State.reset with mem := { powerOns := 0, cells := (List.range bs.length).zip bs |>.map fun c => (0x400 + c.1, c.2) } }

/-- TW in SR with four units, T-S1 of 95_test_vectors.md §5. -/
def srFour : TxWindow :=
  { twOf .sr 4#8 1#8 with
    timeout := 5#24, next := 4#32, slots := pool [unit 0#32 5#24 0#8, unit 1#32 5#24 0#8, unit 2#32 5#24 0#8, unit 3#32 5#24 0#8] }

/-- TW in GBN with the window 3..6, T-G1 of 95_test_vectors.md §5. -/
def gbnFour : TxWindow :=
  { twOf .gbn 8#8 0#8 with timeout := 10#24, base := 3#32, next := 7#32, shared := { armed := true, rem := 4#24 } }

/-- TW in CONN with the timer armed for tag 7, T-C1. -/
def connArmed : TxWindow := { twOf .conn 1#8 0#8 with ptag := 7#32, shared := { armed := true, rem := 1000#24 } }

/-- A payload of n zero bytes. -/
def zeros (n : Nat) : List Byte := List.replicate n 0#8

/-- A delivered entry. -/
def entry (q : Word) : DlvEntry := { seq := q, payload := [0x5A#8] }

/-- n events. -/
def events (n : Nat) : List Event := List.replicate n { kind := .retx, seq := 0#32, count := 1#16 }

/-! ### Well-formedness: a LEN of 16 bits (30_encoding.md R101) -/

theorem test_illformed_encFrame : Instr.wellFormed (.encFrame 65536) = false := by decide
theorem test_illformed_decFrame : Instr.wellFormed (.decFrame 65536) = false := by decide
theorem test_illformed_encSeg : Instr.wellFormed (.encSeg 65536) = false := by decide
theorem test_illformed_decSeg : Instr.wellFormed (.decSeg 65536) = false := by decide

/-! ### Decoding: every constructor by a word written from 30_encoding.md R101, R103 and 95_test_vectors.md -/

theorem test_decode_nop : decode 0x00000000#32 = .ok .nop := by decide
theorem test_decode_clr : decode 0x00000F01#32 = .ok (.clr true true true true) := by decide
theorem test_decode_clr_latch : decode 0x00000101#32 = .ok (.clr true false false false) := by decide
theorem test_decode_encFrame : decode 0x03F70010#32 = .ok (.encFrame 1015) := by decide
theorem test_decode_decFrame : decode 0x000E0011#32 = .ok (.decFrame 14) := by decide
theorem test_decode_encSeg : decode 0x00020012#32 = .ok (.encSeg 2) := by decide
theorem test_decode_decSeg : decode 0x00170013#32 = .ok (.decSeg 23) := by decide
theorem test_decode_rbPush : decode 0x00000020#32 = .ok .rbPush := by decide
theorem test_decode_rbSetexp : decode 0x00000021#32 = .ok .rbSetexp := by decide
theorem test_decode_dlvPop : decode 0x00000022#32 = .ok .dlvPop := by decide
theorem test_decode_twInit : decode 0x00000130#32 = .ok (.twInit true) := by decide
theorem test_decode_twAdmit : decode 0x00000031#32 = .ok .twAdmit := by decide
theorem test_decode_twAck : decode 0x00000032#32 = .ok .twAck := by decide
theorem test_decode_twArm : decode 0x00000033#32 = .ok .twArm := by decide
theorem test_decode_twCancel : decode 0x00000034#32 = .ok .twCancel := by decide
theorem test_decode_twStop : decode 0x00000035#32 = .ok .twStop := by decide
theorem test_decode_rtoSample : decode 0x00000036#32 = .ok .rtoSample := by decide

/-- X-2, X-4, X-6, X-7 and C-E7: reserved bits; X-3: no opcode. -/
theorem test_decode_errors :
    decode 0x00000100#32 = .error .rsvd ∧ decode 0x00000131#32 = .error .rsvd ∧ decode 0x00001001#32 = .error .rsvd ∧
    decode 0x00000230#32 = .error .rsvd ∧ decode 0x00000110#32 = .error .rsvd ∧ decode 0x00000002#32 = .error .badOpc := by decide

/-! ### Digests (95_test_vectors.md §2) -/

theorem test_crc32_K1 : crc32 [0x31#8, 0x32#8, 0x33#8, 0x34#8, 0x35#8, 0x36#8, 0x37#8, 0x38#8, 0x39#8] = 0xCBF43926#32 := by
  decide +kernel
theorem test_crc32_F1 : crc32 (frameCover 0#8 0#32 [0x68#8, 0x65#8, 0x6C#8, 0x6C#8, 0x6F#8]) = 0x13B839ED#32 := by decide +kernel
theorem test_crc32_S1 :
    crc32 (segHead 5000#16 6000#16 1000#32 2000#32 0x10#8 4096#16 0#16 ++ [0x68#8, 0x69#8]) = 0x57EECE65#32 := by decide +kernel
theorem test_md5t_K2 : md5t [0x61#8, 0x62#8, 0x63#8] = 0x90015098#32 := by decide +kernel
theorem test_sha256t_K2 : sha256t [0x61#8, 0x62#8, 0x63#8] = 0xBA7816BF#32 := by decide +kernel

/-! ### Commands -/

/-- X-1. -/
theorem test_nop : answers (exec .nop { State.reset with err := true, errcode := 8#4 }) 0 0 0 0 0 0 = true := by decide

/-- X-5. -/
theorem test_clr : leads (exec (.clr true true true true)
      { withRb (rbOf .sr 4#8 0#32 []) (some (frameLatch true 0#8 0#32 [])) with
        dlv := [entry 0#32, entry 1#32], evt := events 3, tw := { TxWindow.reset with retxCnt := 5#32 } })
    (fun t => t.latch == none && t.dlv == [] && t.evt == [] && t.tw.retxCnt == 0#32 && t.tw.giveupCnt == 0#32) = true := by decide

/-- F1: the bytes of the frame, with the CRC32 digest. -/
theorem test_frame_bytes : frameBytes 0#8 0#32 0x13B839ED#32 [0x68#8, 0x65#8, 0x6C#8, 0x6C#8, 0x6F#8] =
    [0x00#8, 0x00#8, 0x00#8, 0x00#8, 0x00#8, 0x13#8, 0xB8#8, 0x39#8, 0xED#8, 0x68#8, 0x65#8, 0x6C#8, 0x6C#8, 0x6F#8] := by decide

/-- C-E8: ARG0[31:8] is ignored; C-E6. -/
theorem test_encFrame :
    leads (exec (.encFrame 1) (argd (withIbuf [0x41#8]) 0x1FF#32))
      (fun t => t.res.r0 == 10#32 && t.argType == 0xFF#8 && !t.err) = true ∧
    fails (exec (.encFrame 1016) State.reset) 3#4 = true := by decide

/-- The datagram F1. -/
def frameF1 : List Byte :=
  [0x00#8, 0x00#8, 0x00#8, 0x00#8, 0x00#8, 0x13#8, 0xB8#8, 0x39#8, 0xED#8, 0x68#8, 0x65#8, 0x6C#8, 0x6C#8, 0x6F#8]

/-- C-D1, but for the digest the build computes. -/
theorem test_decFrame : leads (exec (.decFrame 14) (withIbuf frameF1))
    (fun t => t.res.r1 == 0#32 && t.res.r2 == 0#32 && t.res.r3 == 5#32 && t.res.r4 == 0x13B839ED#32 &&
      (t.latch.map fun l => (l.fmt, l.type, l.seq, l.payload)) ==
        some (.frame, 0#8, 0#32, [0x68#8, 0x65#8, 0x6C#8, 0x6C#8, 0x6F#8])) = true := by decide

/-- C-D4. -/
theorem test_decFrame_short : answers (exec (.decFrame 8) (withIbuf frameF1)) 2 0 0 0 0 0 = true := by decide

/-- S1: the header bytes of the segment. -/
theorem test_segment_head : segHead 5000#16 6000#16 1000#32 2000#32 0x10#8 4096#16 0#16 =
    [0x13#8, 0x88#8, 0x17#8, 0x70#8, 0x00#8, 0x00#8, 0x03#8, 0xE8#8, 0x00#8, 0x00#8, 0x07#8, 0xD0#8, 0x10#8, 0x10#8, 0x00#8, 0x00#8,
     0x00#8] := by decide

/-- C-S1: the operand packing; C-S4. -/
theorem test_encSeg :
    leads (exec (.encSeg 2) (argd (withIbuf [0x68#8, 0x69#8]) 0x17701388#32))
      (fun t => t.res.r0 == 23#32 && t.argSrcPort == 5000#16 && t.argDstPort == 6000#16) = true ∧
    fails (exec (.encSeg 1004) State.reset) 3#4 = true := by decide

/-- C-S6, but for the digest the build computes. -/
theorem test_decSeg : leads (exec (.decSeg 23) (withIbuf
      [0x13#8, 0x88#8, 0x17#8, 0x70#8, 0x00#8, 0x00#8, 0x03#8, 0xE8#8, 0x00#8, 0x00#8, 0x07#8, 0xD0#8, 0x10#8, 0x10#8, 0x00#8, 0x00#8,
       0x00#8, 0x57#8, 0xEE#8, 0xCE#8, 0x65#8, 0x68#8, 0x69#8]))
    (fun t => t.res.r1 == 0x17701388#32 && t.res.r2 == 1000#32 && t.res.r3 == 2000#32 && t.res.r4 == 0x00100010#32 &&
      t.res.r5 == 2#32 && (t.latch.map fun l => (l.fmt, l.payload)) == some (.seg, [0x68#8, 0x69#8])) = true := by decide

/-- C-S8. -/
theorem test_decSeg_short : answers (exec (.decSeg 20) State.reset) 2 0 0 0 0 0 = true := by decide

/-- R-C4, with the two segments of R-C1 and R-C2 buffered; R-X4: no room for the whole drain. -/
theorem test_rbPush :
    leads (exec .rbPush (withRb
      (rbOf .conn 1#8 1000#32 [{ seq := 1002#32, payload := [0x58#8, 0x59#8, 0x5A#8] }, { seq := 1005#32, payload := [0x21#8] }])
      (some (segLatch true 1000#32 [0x68#8, 0x69#8]))))
    (fun t => t.res == { r0 := 0, r1 := 1, r2 := 1006, r3 := 3, r4 := 1006, r5 := 0 } && t.rb.occupied == 0 && t.latch == none &&
      t.dlv.map (·.seq) == [1000#32, 1002#32, 1005#32]) = true ∧
    fails (pushVerdict
      (srRule true (rbOf .sr 4#8 0#32 [{ seq := 1#32, payload := [1#8] }, { seq := 2#32, payload := [2#8] }])
        (frameLatch true 0#8 0#32 [0#8])) { State.reset with dlv := List.replicate 62 (entry 0#32) }) 7#4 = true := by decide

/-- R-G1, R-G7, R-S4, R-S6 and R-S9. -/
theorem test_rbPush_rules :
    (gbnRule true (rbOf .gbn 1#8 0#32 []) (frameLatch false 0#8 0#32 [])).results =
      { r0 := 4, r1 := 1, r2 := 0xFFFFFFFF, r3 := 0, r4 := 0, r5 := 0 } ∧
    (gbnRule true (rbOf .gbn 1#8 0xFFFFFFFF#32 []) (frameLatch true 0#8 0xFFFFFFFF#32 [0x71#8])).results =
      { r0 := 0, r1 := 1, r2 := 0xFFFFFFFF, r3 := 1, r4 := 0, r5 := 0 } ∧
    (srRule true (rbOf .sr 4#8 0#32 []) (frameLatch true 0#8 4#32 [0x44#8])).results =
      { r0 := 3, r1 := 0, r2 := 0, r3 := 0, r4 := 0, r5 := 0 } ∧
    (srRule true (rbOf .sr 4#8 0#32 []) (frameLatch true 0#8 0x80000000#32 [0x78#8])).results =
      { r0 := 2, r1 := 1, r2 := 0x80000000, r3 := 0, r4 := 0, r5 := 0 } ∧
    (srRule true (rbOf .sr 4#8 1#32 [{ seq := 2#32, payload := [0x42#8] }, { seq := 3#32, payload := [0x43#8] }])
      (frameLatch true 0#8 1#32 [0x41#8])).results = { r0 := 0, r1 := 1, r2 := 1, r3 := 3, r4 := 4, r5 := 0 } := by decide

/-- R-X8. -/
theorem test_rbSetexp : leads (exec .rbSetexp (argd (withRb
      (rbOf .sr 4#8 0#32 [{ seq := 1#32, payload := [] }, { seq := 2#32, payload := [] }]) none) 10#32))
    (fun t => t.res.r0 == 2#32 && t.rb.exp == 10#32 && t.rb.occupied == 0) = true := by decide

/-- R-X9. -/
theorem test_rbSetexp_off : fails (exec .rbSetexp State.reset) 4#4 = true := by decide

/-- R-X7. -/
theorem test_dlvPop : answers (exec .dlvPop { State.reset with dlv := [entry 0#32] }) 1 0 0 0 0 0 = true := by decide

/-- R-X6. -/
theorem test_dlvPop_empty : fails (exec .dlvPop State.reset) 8#4 = true := by decide

/-- T-G10: TW_INIT clears ABORT and moves the window. -/
theorem test_twInit : leads (exec (.twInit false) (argd (withTw { gbnFour with abort := true, shared := SharedTimer.off }) 100#32))
    (fun t => t.tw.base == 100#32 && t.tw.next == 100#32 && !t.tw.abort && t.tw.shared == SharedTimer.off) = true := by decide

/-- T-G1, its first admission, and T-G6 across the wrap. -/
theorem test_twAdmit_gbn :
    leads (exec .twAdmit (withTw { twOf .gbn 8#8 0#8 with timeout := 10#24, base := 3#32, next := 3#32 }))
      (fun t => t.res.r0 == 3#32 && t.res.r1 == 1#32 && t.tw.shared == { armed := true, rem := 10#24 }) = true ∧
    answers (exec .twAdmit (withTw { twOf .gbn 4#8 0#8 with base := 0xFFFFFFFE#32, next := 0xFFFFFFFF#32 })) 0xFFFFFFFF 2 0 0 0 0
      = true := by decide

/-- T-S1. -/
theorem test_twAdmit_sr :
    fails (exec .twAdmit (withTw srFour)) 5#4 = true ∧
    leads (exec .twAdmit (withTw { srFour with next := 3#32, slots := pool [unit 0#32 5#24 0#8, unit 1#32 5#24 0#8, unit 2#32 5#24 0#8] }))
      (fun t => t.res == { r0 := 3, r1 := 4, r2 := 3, r3 := 0, r4 := 0, r5 := 0 } && t.tw.slots == srFour.slots) = true := by decide

/-- T-G2 and T-G4. -/
theorem test_twAck_gbn :
    leads (exec .twAck (argd (withTw gbnFour) 5#32))
      (fun t => t.res == { r0 := 3, r1 := 3, r2 := 6, r3 := 1, r4 := 0, r5 := 0 } && t.tw.shared == { armed := true, rem := 10#24 }) = true ∧
    answers (exec .twAck (argd (withTw { gbnFour with base := 6#32 }) 7#32)) 0 6 6 1 0 0 = true := by decide

/-- T-S2 and T-S5: the base stays, then moves to 3 under SKIP and to 1 under CONTIGUOUS. -/
theorem test_twAck_sr :
    (srFour.srAck .skip 1#32).1 = 1#32 ∧ (srFour.srAck .skip 1#32).2.base = 0#32 ∧ (srFour.srAck .skip 1#32).2.ackMap = 0x2#32 ∧
    ((srFour.srAck .skip 2#32).2.srAck .skip 0#32).2.base = 3#32 ∧
    ((srFour.srAck .contiguous 2#32).2.srAck .contiguous 0#32).2.base = 1#32 := by decide

/-- T-C1. -/
theorem test_twArm : leads (exec .twArm (argd (withTw (twOf .conn 1#8 0#8)) 7#32))
    (fun t => t.res.r0 == 1000#32 && t.tw.ptag == 7#32 && t.tw.shared == { armed := true, rem := 1000#24 }) = true := by decide

/-- T-C5. -/
theorem test_twArm_mode : fails (exec .twArm (withTw (twOf .gbn 1#8 0#8))) 4#4 = true := by decide

/-- T-C3, both times. -/
theorem test_twCancel :
    answers (exec .twCancel (withTw connArmed)) 1 0 0 0 0 0 = true ∧
    answers (exec .twCancel (withTw (twOf .conn 1#8 0#8))) 0 0 0 0 0 0 = true := by decide

/-- T-S10. -/
theorem test_twStop : leads (exec .twStop (withTw srFour))
    (fun t => t.res.r0 == 4#32 && t.tw.stopped && t.tw.tstat == 0#32 && fails (exec .twAdmit t) 10#4) = true := by decide

/-- T-R1 and T-R4, in both orders. -/
theorem test_rtoSample :
    Estimator.reset.sample .old 100#24 = { sa := 7100#32, sv := 900#32, rto := 1787#32 } ∧
    Estimator.reset.sample .new 100#24 = { sa := 7100#32, sv := 787#32, rto := 1674#32 } ∧
    Estimator.reset.sample .old 16777215#24 = { sa := 16784215#32, sv := 16776215#32, rto := 5000#32 } ∧
    Estimator.reset.sample .new 16777215#24 = { sa := 16784215#32, sv := 14679189#32, rto := 5000#32 } := by decide

/-- T-R7: ARG0 bits above 23 are ignored. -/
theorem test_rtoSample_operand : (argd State.reset 0x01000064#32).argSample = 100#24 := by decide

/-! ### The arbiter -/

/-- T-S7 and T-S8: four retransmissions oldest first, then four give-ups that slide. -/
theorem test_arbiter_sr :
    let due := { srFour with slots := pool [unit 0#32 0#24 0#8, unit 1#32 0#24 0#8, unit 2#32 0#24 0#8, unit 3#32 0#24 0#8] }
    let worn := { srFour with slots := pool [unit 0#32 0#24 1#8, unit 1#32 0#24 1#8, unit 2#32 0#24 1#8, unit 3#32 0#24 1#8] }
    ((arbitrateLoop true .skip 64 due []).2.map fun e => (e.kind, e.seq)) =
      [(.retx, 0#32), (.retx, 1#32), (.retx, 2#32), (.retx, 3#32)] ∧
    (arbitrateLoop true .skip 64 worn []).1.base = 4#32 ∧ (arbitrateLoop true .skip 64 worn []).1.giveupCnt = 4#32 := by decide

/-- T-G9 and T-C4: the abort and the exhaustion. -/
theorem test_services :
    (gbnFour.serveGbn.2, gbnFour.serveGbn.1.abort) = (({ kind := .abort, seq := 3#32, count := 4#16 } : Event), true) ∧
    ({ connArmed with cfg := { connArmed.cfg with connLimit := true } } : TxWindow).serveConn.2 =
      { kind := .pexhaust, seq := 7#32, count := 1#16 } ∧
    connArmed.serveConn.2 = { kind := .retx, seq := 7#32, count := 1#16 } := by decide

/-! ### The host port -/

/-- X-8 to X-11. -/
theorem test_refused :
    State.reset.hostRead .byte 0x014 = { State.reset with accErr := true } ∧
    State.reset.hostRead .word 0x402 = { State.reset with accErr := true } ∧
    State.reset.hostWrite .word 0x800 7#32 = { State.reset with accErr := true } ∧
    State.reset.hostRead .word 0x0C0 = State.reset ∧ State.reset.hostRead .word 0xC00 = State.reset := by decide

/-- X-12: the lanes of a 32-bit write to IBUF. -/
theorem test_ibuf_lanes : (State.reset.hostWrite .word 0x404 0xE102A901#32).mem.bytes 0x404 4 = [0x01#8, 0xA9#8, 0x02#8, 0xE1#8] :=
  Memory.bytes_setBytes State.reset.mem 0x404 [0x01#8, 0xA9#8, 0x02#8, 0xE1#8]

/-- X-18, X-19, T-G11, T-G12: the WARL fields. -/
theorem test_warl :
    (State.reset.hostWrite .word 0x054 0xFF000005#32).readReg .twTimeout = 5#32 ∧
    (State.reset.hostWrite .word 0x054 0#32).readReg .twTimeout = 1#32 ∧
    (State.reset.hostWrite .word 0x050 0x00000001#32).readReg .twCfg = 0x00000101#32 ∧
    (State.reset.hostWrite .word 0x050 0x0000C801#32).readReg .twCfg = 0x00002001#32 := by decide

/-- P5, step 5: BUSY, CMD_OVR and ACC_ERR. -/
theorem test_busy_hazards :
    ((((State.reset.hostWrite .word 0x020 5#32).hostWrite .word 0x01C 0x21#32).hostWrite .word 0x020 9#32).hostWrite .word 0x01C
      0#32).status = 0x00012001#32 := by decide

/-- R-X10. -/
theorem test_rb_map :
    (withRb (rbOf .sr 4#8 0#32 [{ seq := 2#32, payload := [] }, { seq := 3#32, payload := [] }]) none).readReg .rbMap = 0xC#32 := by decide

/-- The first step after reset runs the word that withFetchWord places. -/
theorem test_step_runs_word : answers (step (State.reset.withFetchWord 32 0x35)) 0 0 0 0 0 0 = true := by decide

/-! ### Witnesses: what meets the hypotheses of each statement, each clause at a boundary -/

theorem rbInv_reset : RbInv Reorder.reset :=
  ⟨by decide, by decide, by decide, by decide, by decide, by decide, by decide, by decide⟩

theorem twInv_reset : TwInv TxWindow.reset :=
  ⟨by decide, by decide, by decide, fun _ => by decide, by decide, by decide, by decide, by decide, by decide, by decide, by decide,
    by decide, by decide, by decide, by decide, by decide⟩

theorem twInv_srFour : TwInv srFour :=
  ⟨by decide, by decide, by decide, fun _ => by decide, by decide, by decide, by decide, by decide, by decide, by decide, by decide,
    by decide, by decide, by decide, by decide, by decide⟩

theorem twInv_gbnFour : TwInv gbnFour :=
  ⟨by decide, by decide, by decide, fun _ => by decide, by decide, by decide, by decide, by decide, by decide, by decide, by decide,
    by decide, by decide, by decide, by decide, by decide⟩

/-- TW stopped, as TW_STOP leaves it. -/
def stoppedTw : TxWindow := { srFour with slots := pool [], stopped := true }

theorem twInv_stopped : TwInv stoppedTw :=
  ⟨by decide, by decide, by decide, fun _ => by decide, by decide, by decide, by decide, by decide, by decide, by decide, by decide,
    by decide, by decide, by decide, by decide, by decide⟩

/-- SR with N = 4: sequence 3, the last of the window, is buffered. -/
def srRb : Reorder := rbOf .sr 4#8 0#32 [{ seq := 3#32, payload := [0x43#8] }]

theorem rbInv_sr : RbInv srRb :=
  ⟨by decide, by decide, by decide, by decide, by decide, by decide, by decide, by decide⟩

/-- CONN with one segment buffered right after the expected byte and one that an advance would overtake. -/
def connRb : Reorder := rbOf .conn 1#8 1000#32 [{ seq := 1001#32, payload := [0x62#8] }, { seq := 1002#32, payload := [0x63#8] }]

theorem rbInv_conn : RbInv connRb :=
  ⟨by decide, by decide, by decide, by decide, by decide, by decide, by decide, by decide⟩

theorem queueInv_reset : QueueInv State.reset := ⟨by decide, by decide, by decide⟩

/-- DLV with 63 entries. -/
def dlv63 : List DlvEntry := List.replicate 63 (entry 0#32)

/-- DLV full. -/
def dlv64 : List DlvEntry := List.replicate 64 (entry 0#32)

theorem witness_EncodeThenDecode : Instr.wellFormed (.encFrame 0) = true ∧ Instr.wellFormed (.decSeg 65535) = true := by decide

theorem witness_DecodeThenEncode : decode 0xFFFF0010#32 = .ok (.encFrame 65535) ∧ decode 0x00000F01#32 = .ok (.clr true true true true) := by
  decide

/-- Every kind of reserved bit, the word after the last opcode of each group, and the first LEN over each limit. -/
theorem witness_WordChecksInOrder :
    (0x00000002#32).extractLsb' 0 8 = 0x02#8 ∧ (0x00000037#32).extractLsb' 0 8 = 0x37#8 ∧
    0x00000110#32 &&& 0x0000FF00#32 ≠ 0#32 ∧ 0x00001001#32 &&& 0xFFFFF000#32 ≠ 0#32 ∧ 0x00000230#32 &&& 0xFFFFFE00#32 ≠ 0#32 ∧
    0x00010031#32 &&& 0xFFFFFF00#32 ≠ 0#32 ∧
    0xFFFF0013#32 &&& 0x0000FF00#32 = 0#32 ∧ 0x00000F01#32 &&& 0xFFFFF000#32 = 0#32 ∧ 0x00000130#32 &&& 0xFFFFFE00#32 = 0#32 ∧
    0x00000036#32 &&& 0xFFFFFF00#32 = 0#32 ∧ 1015 < 1016 ∧ 1024 < 1025 ∧ 1003 < 1004 := by decide

/-- Both ways the engine's turn comes, with a pending word that decodes, and one whose command answers a next state. -/
theorem witness_StepRunsPendingCommand :
    (∃ (s : State) (w : Word) (i : Instr) (rest : List Stimulus),
      s.pending = some w ∧ decode w = .ok i ∧ s.trace = .engine :: rest ∧ rest = [.tick]) ∧
    (∃ (s : State) (w : Word) (i : Instr), s.pending = some w ∧ decode w = .ok i ∧ s.trace = []) ∧
    (decode 0x00000002#32 = .error .badOpc ∧ decode 0x00000110#32 = .error .rsvd) ∧
    ∃ (s t : State) (w : Word) (i : Instr), decode w = .ok i ∧ exec i { s with pending := none } = .next t :=
  ⟨⟨{ State.reset with pending := some 0x35#32, trace := [.engine, .tick] }, 0x35#32, .twStop, [.tick], by decide⟩,
    ⟨{ State.reset with pending := some 0x35#32 }, 0x35#32, .twStop, by decide⟩,
    by decide, ⟨State.reset, _, 0x35#32, .twStop, by decide, rfl⟩⟩

theorem witness_StepTakesOneStimulus : State.reset.pending = none := rfl

/-- A word that is no command, and a command that fails by its own rule. -/
theorem witness_CommandErrorsArePrecise :
    (∃ (s t : State) (w : Word), s.pending = some w ∧ complete s = .next t ∧ t.err = true) ∧
    ∃ (s t : State), s.pending = some 0x22#32 ∧ complete s = .next t ∧ t.err = true :=
  ⟨⟨{ State.reset with pending := some 0x02#32 }, _, 0x02#32, rfl, rfl, rfl⟩,
    ⟨{ State.reset with pending := some 0x22#32 }, _, rfl, rfl, rfl⟩⟩

/-- The words of the two CMD-F commands, with F clear and with a reserved bit set. -/
theorem witness_ClrClearsSelected_TwInitResetsWindow :
    (0x00000F01#32).extractLsb' 0 8 = 0x01#8 ∧ (0x00001001#32).extractLsb' 0 8 = 0x01#8 ∧
    (0x00000130#32).extractLsb' 0 8 = 0x30#8 ∧ (0x00000230#32).extractLsb' 0 8 = 0x30#8 := by decide

/-- Both sides of every LEN limit of the codec commands; the words of the CMD-L and CMD-R commands are those of the decode tests. -/
theorem witness_codec_lengths :
    1015 < 1016 ∧ 1015 ≤ 1015 ∧ 1024 < 1025 ∧ 8 < 9 ∧ 9 ≤ 9 ∧ 9 ≤ 1024 ∧ 1024 ≤ 1024 ∧ 1003 < 1004 ∧ 1003 ≤ 1003 ∧ 20 < 21 ∧ 21 ≤ 21 ∧
    (0xFFFF0010#32).extractLsb' 0 8 = 0x10#8 ∧ (0x00000111#32).extractLsb' 0 8 = 0x11#8 ∧ (0x00000012#32).extractLsb' 0 8 = 0x12#8 ∧
    (0x00000013#32).extractLsb' 0 8 = 0x13#8 := by decide

/-- A state whose IBUF holds what another state's OBUF holds. -/
theorem carried (t : State) (n : Nat) : ∃ u : State, u.mem.bytes 0x400 n = t.mem.bytes 0x800 n := by
  have h := Memory.bytes_setBytes t.mem 0x400 (t.mem.bytes 0x800 n)
  rw [Memory.bytes_length] at h
  exact ⟨{ t with mem := t.mem.setBytes 0x400 (t.mem.bytes 0x800 n) }, h⟩

theorem encFrame_carried (len : Nat) (h : len ≤ 1015) : ∃ s t u : State, exec (.encFrame len) s = .next t ∧
    u.mem.bytes 0x400 (9 + len) = t.mem.bytes 0x800 (9 + len) := by
  obtain ⟨t, ht⟩ : ∃ t, exec (.encFrame len) State.reset = .next t := by
    simp only [exec, execEncFrame, if_neg (Nat.not_lt.mpr h)]; exact ⟨_, rfl⟩
  obtain ⟨u, hu⟩ := carried t (9 + len)
  exact ⟨_, t, u, ht, hu⟩

theorem encSeg_carried (len : Nat) (h : len ≤ 1003) : ∃ s t u : State, exec (.encSeg len) s = .next t ∧
    u.mem.bytes 0x400 (21 + len) = t.mem.bytes 0x800 (21 + len) := by
  obtain ⟨t, ht⟩ : ∃ t, exec (.encSeg len) State.reset = .next t := by
    simp only [exec, execEncSeg, if_neg (Nat.not_lt.mpr h)]; exact ⟨_, rfl⟩
  obtain ⟨u, hu⟩ := carried t (21 + len)
  exact ⟨_, t, u, ht, hu⟩

/-- A state whose IBUF holds what ENC_FRAME left in OBUF, for the longest payload. -/
theorem witness_FrameSurvivesTheWire : ∃ s t u : State, exec (.encFrame 1015) s = .next t ∧
    u.mem.bytes 0x400 (9 + 1015) = t.mem.bytes 0x800 (9 + 1015) := encFrame_carried 1015 (by decide)

/-- A state whose IBUF holds what ENC_SEG left in OBUF, for the longest payload. -/
theorem witness_SegmentSurvivesTheWire : ∃ s t u : State, exec (.encSeg 1003) s = .next t ∧
    u.mem.bytes 0x400 (21 + 1003) = t.mem.bytes 0x800 (21 + 1003) := encSeg_carried 1003 (by decide)

/-- Two states that agree on the 14 bytes of F1 and differ in the byte after it and in their registers. -/
theorem witness_DecodeReadsOnlyItsBytes : ∃ (s u : State) (len : Nat), len ≤ 1024 ∧
    (∀ k < len, s.mem.byteAt (0x400 + k) = u.mem.byteAt (0x400 + k)) ∧ s.mem.byteAt (0x400 + len) ≠ u.mem.byteAt (0x400 + len) ∧
    s.args ≠ u.args :=
  ⟨withIbuf (frameF1 ++ [1#8]), argd (withIbuf (frameF1 ++ [2#8])) 1#32, 14, by decide, by decide, by decide, by decide⟩

/-- Every check of RB_PUSH before the mode rule. -/
theorem witness_RbPushChecksInOrder :
    (withRb (rbOf .off 1#8 0#32 []) none).rb.mode = .off ∧
    ((withRb srRb none).rb.mode ≠ .off ∧ (withRb srRb none).latch = none) ∧
    (∃ (s : State) (l : Latch), s.latch = some l ∧ s.rb.mode = .gbn ∧ l.fmt ≠ .frame) ∧
    (∃ (s : State) (l : Latch), s.latch = some l ∧ s.rb.mode = .sr ∧ l.fmt ≠ .frame) ∧
    ∃ (s : State) (l : Latch), s.latch = some l ∧ s.rb.mode = .conn ∧ l.fmt ≠ .seg :=
  ⟨rfl, by decide, ⟨withRb (rbOf .gbn 1#8 0#32 []) (some (segLatch true 0#32 [])), _, rfl, rfl, by decide⟩,
    ⟨withRb srRb (some (segLatch true 0#32 [])), _, rfl, rfl, by decide⟩,
    ⟨withRb connRb (some (frameLatch true 0#8 0#32 [])), _, rfl, rfl, by decide⟩⟩

theorem otherType : Config.typeData + 1#8 ≠ Config.typeData := by
  intro h; bv_omega

/-- Every branch of the GBN rule, a payload of 1003 and of 1004 bytes, and DLV with 63 and with 64 entries. -/
theorem witness_GbnReceiveRule :
    (∃ (s : State) (l : Latch), s.rb.mode = .gbn ∧ s.latch = some l ∧ l.fmt = .frame ∧ s.dlv.length ≤ Config.dlvDepth ∧ l.ok = false) ∧
    (∃ (s : State) (l : Latch), s.rb.mode = .gbn ∧ s.latch = some l ∧ l.fmt = .frame ∧ s.dlv.length ≤ Config.dlvDepth ∧ l.ok = true ∧
      l.type ≠ Config.typeData) ∧
    (∃ (s : State) (l : Latch), s.rb.mode = .gbn ∧ s.latch = some l ∧ l.fmt = .frame ∧ s.dlv.length ≤ Config.dlvDepth ∧ l.ok = true ∧
      l.type = Config.typeData ∧ l.seq ≠ s.rb.exp) ∧
    (∃ (s : State) (l : Latch), s.rb.mode = .gbn ∧ s.latch = some l ∧ l.fmt = .frame ∧ s.dlv.length ≤ Config.dlvDepth ∧ l.ok = true ∧
      l.type = Config.typeData ∧ l.seq = s.rb.exp ∧ Config.maxPayload < l.payload.length) ∧
    (∃ (s : State) (l : Latch), s.rb.mode = .gbn ∧ s.latch = some l ∧ l.fmt = .frame ∧ l.ok = true ∧ l.type = Config.typeData ∧
      l.seq = s.rb.exp ∧ l.payload.length ≤ Config.maxPayload ∧ Config.dlvDepth < s.dlv.length + 1) ∧
    ∃ (s : State) (l : Latch), s.rb.mode = .gbn ∧ s.latch = some l ∧ l.fmt = .frame ∧ l.ok = true ∧ l.type = Config.typeData ∧
      l.seq = s.rb.exp ∧ l.payload.length ≤ Config.maxPayload ∧ s.dlv.length + 1 ≤ Config.dlvDepth :=
  let rb := rbOf .gbn 1#8 0#32 []
  ⟨⟨{ withRb rb (some (frameLatch false 0#8 0#32 [])) with dlv := dlv64 }, _, rfl, rfl, rfl, by decide, rfl⟩,
    ⟨{ withRb rb (some (frameLatch true (Config.typeData + 1#8) 0#32 [])) with dlv := dlv64 }, _, rfl, rfl, rfl, by decide, rfl, otherType⟩,
    ⟨withRb rb (some (frameLatch true Config.typeData 1#32 [])), _, rfl, rfl, rfl, by decide, rfl, rfl, by decide⟩,
    ⟨withRb rb (some (frameLatch true Config.typeData 0#32 (zeros 1004))), _, rfl, rfl, rfl, by decide, rfl, rfl, rfl, by decide +kernel⟩,
    ⟨{ withRb rb (some (frameLatch true Config.typeData 0#32 (zeros 1003))) with dlv := dlv64 }, _, rfl, rfl, rfl, rfl, rfl, rfl,
      by decide +kernel, by decide⟩,
    ⟨{ withRb rb (some (frameLatch true Config.typeData 0#32 (zeros 1003))) with dlv := dlv63 }, _, rfl, rfl, rfl, rfl, rfl, rfl,
      by decide +kernel, by decide⟩⟩

/-- SR with every slot taken, for the branch that needs it. -/
def fullRb : Reorder :=
  { rbOf .sr 4#8 0#32 [] with slots := List.replicate 32 (some { seq := 9#32, payload := [] }) }

/-- Every branch of the SR rule that delivers nothing, at d = 1, N - 1, N, 2^31 - 1 and 2^31 (R-S1, R-S2, R-S4 to R-S6). -/
theorem witness_SrReceiveRuleWithoutDelivery :
    let data := fun q p => frameLatch true Config.typeData q p
    let d := fun (rb : Reorder) (l : Latch) => (dist rb.exp l.seq).toNat
    (∀ l : Latch, (withRb srRb (some l)).rb.mode = .sr ∧ (withRb srRb (some l)).latch = some l ∧
      ({ withRb srRb (some l) with dlv := dlv64 } : State).dlv.length ≤ Config.dlvDepth) ∧
    (data 0#32 []).fmt = .frame ∧ (data 0#32 []).ok = true ∧ (data 0#32 []).type = Config.typeData ∧
    (frameLatch false 0#8 0#32 []).ok = false ∧ (frameLatch true (Config.typeData + 1#8) 0#32 []).type ≠ Config.typeData ∧
    (d srRb (data 3#32 (zeros 1004)) < srRb.n.toNat ∧ Config.maxPayload < (data 3#32 (zeros 1004)).payload.length) ∧
    (d srRb (data 3#32 (zeros 1003)) < srRb.n.toNat ∧ (data 3#32 (zeros 1003)).payload.length ≤ Config.maxPayload ∧
      d srRb (data 3#32 []) ≠ 0 ∧ ∃ r ∈ srRb.units, r.seq = (data 3#32 []).seq) ∧
    (d srRb (data 1#32 []) < srRb.n.toNat ∧ d srRb (data 1#32 []) ≠ 0 ∧ (∀ r ∈ srRb.units, r.seq ≠ (data 1#32 []).seq) ∧
      LowestFree srRb.slots 1) ∧
    (d fullRb (data 3#32 []) < fullRb.n.toNat ∧ d fullRb (data 3#32 []) ≠ 0 ∧ (∀ r ∈ fullRb.units, r.seq ≠ (data 3#32 []).seq) ∧
      ∀ j : Nat, fullRb.slots[j]? ≠ some none) ∧
    (srRb.n.toNat ≤ d srRb (data 0x80000000#32 []) ∧ 2 ^ 31 ≤ d srRb (data 0x80000000#32 [])) ∧
    (srRb.n.toNat ≤ d srRb (data 4#32 []) ∧ d srRb (data 4#32 []) < 2 ^ 31) ∧ d srRb (data 0x7FFFFFFF#32 []) < 2 ^ 31 :=
  ⟨fun _ => ⟨rfl, rfl, (by decide : dlv64.length ≤ Config.dlvDepth)⟩, rfl, rfl, rfl, rfl, otherType, ⟨by decide, by decide +kernel⟩,
    ⟨by decide, by decide +kernel, by decide, by decide⟩, ⟨by decide, by decide, by decide, by decide, by decide⟩,
    ⟨by decide, by decide, by decide, (firstFree_eq_none _).mp (by decide)⟩, by decide, by decide, by decide⟩

/-- An in-order SR arrival that drains, with room for it and without (R-S9, R-X4). -/
theorem witness_SrInOrderArrivalDrains :
    ∃ (s : State) (l : Latch), RbInv s.rb ∧ s.rb.mode = .sr ∧ s.latch = some l ∧ l.fmt = .frame ∧ l.ok = true ∧
      l.type = Config.typeData ∧ l.seq = s.rb.exp ∧ l.payload.length ≤ Config.maxPayload ∧ s.dlv.length + 1 ≤ Config.dlvDepth ∧
      Config.dlvDepth < s.dlv.length + 2 :=
  ⟨{ withRb srRb (some (frameLatch true Config.typeData 0#32 (zeros 1003))) with dlv := dlv63 }, _, rbInv_sr, rfl, rfl, rfl, rfl, rfl,
    rfl, by decide +kernel, by decide, by decide⟩

/-- An SR push that succeeds. -/
theorem witness_SrNeverRunsOutOfSlots : ∃ s t : State, RbInv s.rb ∧ s.rb.mode = .sr ∧ exec .rbPush s = .next t ∧ t.err = false :=
  ⟨withRb srRb (some (frameLatch false 0#8 0#32 [])), _, rbInv_sr, rfl, rfl, rfl⟩

/-- Every branch of the CONN rule that delivers nothing, at d = 1, 2^31 - 1 and 2^31 (R-C3, R-C7 to R-C10). -/
theorem witness_ConnReceiveRuleWithoutDelivery :
    let full : Reorder := { connRb with slots := List.replicate 32 (some { seq := 1001#32, payload := [1#8] }) }
    let d := fun (rb : Reorder) (l : Latch) => (dist rb.exp l.seq).toNat
    (∀ l : Latch, (withRb connRb (some l)).rb.mode = .conn ∧ (withRb connRb (some l)).latch = some l ∧
      ({ withRb connRb (some l) with dlv := dlv64 } : State).dlv.length ≤ Config.dlvDepth) ∧
    (segLatch false 0#32 []).ok = false ∧ ((segLatch true 1000#32 []).ok = true ∧ (segLatch true 1000#32 []).payload = []) ∧
    (segLatch true 1000#32 []).fmt = .seg ∧ Config.maxPayload < (segLatch true 1000#32 (zeros 1004)).payload.length ∧
    ((segLatch true 1001#32 (zeros 1003)).payload ≠ [] ∧ (segLatch true 1001#32 (zeros 1003)).payload.length ≤ Config.maxPayload) ∧
    (0 < d connRb (segLatch true 1001#32 [1#8]) ∧ d connRb (segLatch true 1001#32 [1#8]) < 2 ^ 31 ∧
      connRb.slots[0]? = some (some { seq := 1001#32, payload := [0x62#8] }) ∧
      ∀ k < 0, ∀ r' : RbSlot, connRb.slots[k]? = some (some r') → r'.seq ≠ 1001#32) ∧
    (0 < d connRb (segLatch true 0x800003E7#32 [1#8]) ∧ d connRb (segLatch true 0x800003E7#32 [1#8]) < 2 ^ 31 ∧
      (∀ r ∈ connRb.units, r.seq ≠ 0x800003E7#32) ∧ LowestFree connRb.slots 2) ∧
    (0 < d full (segLatch true 5000#32 [1#8]) ∧ d full (segLatch true 5000#32 [1#8]) < 2 ^ 31 ∧
      (∀ r ∈ full.units, r.seq ≠ 5000#32) ∧ ∀ j : Nat, full.slots[j]? ≠ some none) ∧
    2 ^ 31 ≤ d connRb (segLatch true 0x800003E8#32 [1#8]) :=
  ⟨fun _ => ⟨rfl, rfl, (by decide : dlv64.length ≤ Config.dlvDepth)⟩, rfl, ⟨rfl, rfl⟩, rfl, by decide +kernel, ⟨by decide, by decide +kernel⟩,
    ⟨by decide, by decide, by decide, fun k hk => absurd hk (by omega)⟩, ⟨by decide, by decide, by decide, by decide, by decide⟩,
    ⟨by decide, by decide, by decide, (firstFree_eq_none _).mp (by decide)⟩, by decide⟩

/-- An in-order segment that drains one buffered segment and overtakes another, with DLV nearly full. -/
theorem witness_ConnInOrderArrivalDrains :
    ∃ (s : State) (l : Latch), RbInv s.rb ∧ s.rb.mode = .conn ∧ s.latch = some l ∧ l.fmt = .seg ∧ l.ok = true ∧ l.payload ≠ [] ∧
      l.payload.length ≤ Config.maxPayload ∧ l.seq = s.rb.exp ∧ s.dlv.length + 1 ≤ Config.dlvDepth ∧
      Config.dlvDepth < s.dlv.length + 2 :=
  ⟨{ withRb connRb (some (segLatch true 1000#32 [1#8, 2#8])) with dlv := dlv63 }, _, rbInv_conn, rfl, rfl, rfl, rfl, by decide,
    by decide, rfl, by decide, by decide⟩

/-- A push without an ACK and one with an ACK. -/
theorem witness_AcksOnlyWhereTheRuleSays :
    (∃ s t : State, exec .rbPush s = .next t ∧ t.err = false ∧ t.res.r0 = 5#32) ∧
    (∃ s t : State, exec .rbPush s = .next t ∧ t.err = false ∧ t.res.r0 = 4#32 ∧ s.rb.mode = .gbn) ∧
    ∃ s t : State, exec .rbPush s = .next t ∧ t.err = false ∧ t.res.r0 = 4#32 ∧ s.rb.mode ≠ .gbn :=
  ⟨⟨withRb connRb (some (segLatch true 1000#32 [])), _, rfl, rfl, rfl⟩,
    ⟨withRb (rbOf .gbn 1#8 0#32 []) (some (frameLatch false 0#8 0#32 [])), _, rfl, rfl, rfl, rfl⟩,
    ⟨withRb srRb (some (frameLatch false 0#8 0#32 [])), _, rfl, rfl, rfl, by decide⟩⟩

theorem witness_RbSetexpFreesSlots : State.reset.rb.mode = .off ∧ (withRb srRb none).rb.mode ≠ .off := by decide

theorem witness_DlvPopMovesHeadToObuf :
    State.reset.dlv = [] ∧ ({ State.reset with dlv := dlv64 } : State).dlv = entry 0#32 :: dlv63 := by decide

/-- Every row of R221: no window mode, stopped, aborted; CONN and not. -/
theorem witness_TwCommandLegality :
    ¬ (withTw (twOf .conn 1#8 0#8)).tw.windowed ∧ (withTw stoppedTw).tw.windowed ∧ (withTw stoppedTw).tw.stopped = true ∧
    ({ gbnFour with abort := true } : TxWindow).windowed ∧ ({ gbnFour with abort := true } : TxWindow).stopped = false ∧
    ({ gbnFour with abort := true } : TxWindow).abort = true ∧ gbnFour.cfg.mode ≠ .conn ∧
    ({ connArmed with stopped := true } : TxWindow).cfg.mode = .conn ∧ ({ connArmed with stopped := true } : TxWindow).stopped = true :=
  ⟨by unfold TxWindow.windowed; decide, .inr rfl, rfl, .inl rfl, rfl, rfl, by decide, rfl, rfl⟩

/-- GBN with an empty window, with one place left, and full. -/
theorem witness_GbnAdmission :
    (gbnFour.cfg.mode = .gbn ∧ gbnFour.stopped = false ∧ gbnFour.abort = false) ∧
    (dist gbnFour.base gbnFour.base).toNat < gbnFour.cfg.n.toNat ∧
    (dist (0xFFFFFFFF#32) gbnFour.next).toNat = gbnFour.cfg.n.toNat ∧ (dist (0#32) gbnFour.next).toNat + 1 = gbnFour.cfg.n.toNat := by decide

/-- SR with a full window, with a full pool, with a free slot, and with a unit that next is about to leave 2^31 behind. -/
theorem witness_SrAdmission :
    (srFour.cfg.mode = .sr ∧ srFour.stopped = false ∧ srFour.abort = false) ∧
    srFour.cfg.n.toNat ≤ (dist srFour.base srFour.next).toNat ∧
    (dist (1#32) srFour.next).toNat < srFour.cfg.n.toNat ∧ LowestFree srFour.slots 4 ∧
    (∀ j : Nat, (List.replicate 64 (some (unit 0#32 1#24 0#8)))[j]? ≠ some none) ∧
    (∀ t ∈ srFour.units, (dist t.seq (srFour.next + 1#32)).toNat < 2 ^ 31) ∧
    ∃ t ∈ ({ srFour with next := 0x7FFFFFFF#32 } : TxWindow).units, 2 ^ 31 ≤ (dist t.seq (0x7FFFFFFF#32 + 1#32)).toNat :=
  ⟨by decide, by decide, by decide, (firstFree_eq_some _ _).mp (by decide), (firstFree_eq_none _).mp (by decide), by decide, by decide⟩

/-- GBN ACKs of the first and of the last unit of the window, of next, and of the sequence before base. -/
theorem witness_GbnAcknowledgment :
    (gbnFour.cfg.mode = .gbn ∧ gbnFour.stopped = false ∧ gbnFour.abort = false) ∧
    (dist gbnFour.base 3#32).toNat < (dist gbnFour.base gbnFour.next).toNat ∧
    (dist gbnFour.base 6#32).toNat < (dist gbnFour.base gbnFour.next).toNat ∧
    (dist gbnFour.base gbnFour.next).toNat ≤ (dist gbnFour.base 7#32).toNat ∧
    (dist gbnFour.base gbnFour.next).toNat ≤ (dist gbnFour.base 2#32).toNat := by decide

theorem witness_SrAcknowledgment : TwInv (withTw srFour).tw ∧ (withTw srFour).tw.cfg.mode = .sr ∧ (withTw srFour).tw.stopped = false :=
  ⟨twInv_srFour, rfl, rfl⟩

/-- A window with nothing acknowledged, and one whose furthest acknowledged sequence is 2 (T-S5). -/
theorem witness_SlideRules :
    (∀ x, TxWindow.reset.acked x = false) ∧
    ∃ (tw : TxWindow) (x : Word), tw.acked x = true ∧ ∀ y, tw.acked y = true → (dist tw.base y).toNat ≤ (dist tw.base x).toNat := by
  refine ⟨fun x => ?_, { srFour with next := 3#32, slots := pool [unit 1#32 1#24 0#8] }, 2#32, by decide, fun y hy => ?_⟩
  · by_contra h
    have := TxWindow.acked_dist TxWindow.reset x (by simpa using h)
    simp [TxWindow.outstanding, TxWindow.reset] at this
  · have h1 := TxWindow.acked_dist _ y hy
    have h2 : (dist (0#32) (3#32)).toNat = 3 := by decide
    have h3 : (dist (0#32) (2#32)).toNat = 2 := by decide
    change (dist (0#32) y).toNat < (dist (0#32) (3#32)).toNat at h1
    change (dist (0#32) y).toNat ≤ (dist (0#32) (2#32)).toNat
    omega

theorem witness_TwArmAndTwCancel :
    (withTw connArmed).tw.cfg.mode = .conn ∧ (withTw connArmed).tw.stopped = false ∧ State.reset.tw.cfg.mode ≠ .conn ∧
    ({ twOf .conn 1#8 0#8 with stopped := true } : TxWindow).cfg.mode = .conn ∧
    ({ twOf .conn 1#8 0#8 with stopped := true } : TxWindow).stopped = true := by decide

theorem witness_RtoSampleUpdatesEstimator :
    State.reset.tw.est.sa.toNat < 2 ^ 27 ∧ State.reset.tw.est.sv.toNat < 2 ^ 26 ∧ (0x07FFFFFF#32).toNat < 2 ^ 27 ∧
    (0x03FFFFFF#32).toNat < 2 ^ 26 := by decide

theorem witness_TickCountsDown :
    srFour.slots[3]? = some (some (unit 3#32 5#24 0#8)) ∧ srFour.slots[4]? = some none := by decide

/-- A timer run out in each mode, EVT with one place left, and EVT full. -/
theorem witness_ArbiterServesUntilQuietOrFull :
    State.reset.tw.cfg.mode = .off ∧ gbnFour.cfg.mode = .gbn ∧ connArmed.cfg.mode = .conn ∧ srFour.cfg.mode = .sr ∧
    (∃ (tw : TxWindow) (e : Event),
      ({ withTw { connArmed with shared := { armed := true, rem := 0#24 } } with evt := events 63 } : State).tw.serveOldest
        Config.giveupSlides Config.srSlide = some (tw, e)) ∧
    (events 63).length < Config.evtDepth ∧ (events 64).length ≤ Config.evtDepth ∧ NoExpiryWaits { withTw srFour with evt := events 64 } :=
  ⟨rfl, rfl, rfl, rfl, ⟨_, _, rfl⟩, by decide, by decide, .inr (by decide)⟩

/-- Two units expired at once: the older is served. -/
theorem witness_ArbiterServesOldestFirst :
    ∃ (g : Bool) (rule : Config.SrSlide) (tw tw' : TxWindow) (e : Event), tw.cfg.mode = .sr ∧ tw.serveOldest g rule = some (tw', e) :=
  ⟨true, .skip, { srFour with slots := pool [unit 1#32 0#24 0#8, unit 0#32 0#24 1#8] }, _, _, rfl, rfl⟩

/-- A unit one retry below the ceiling and one at it, in each mode; the CONN count at 255. -/
theorem witness_ExpiryServices :
    ((unit 0#32 0#24 0#8).retries.toNat < srFour.cfg.maxRetries.toNat ∧ srFour.cfg.maxRetries.toNat ≤ (unit 0#32 0#24 1#8).retries.toNat) ∧
    ((twOf .gbn 1#8 1#8).retry.toNat < (twOf .gbn 1#8 1#8).cfg.maxRetries.toNat ∧
      gbnFour.cfg.maxRetries.toNat ≤ gbnFour.retry.toNat) ∧
    (({ connArmed with retry := 255#8 } : TxWindow).cfg.connLimit = false ∧
      (twOf .conn 1#8 1#8 true).retry.toNat < (twOf .conn 1#8 1#8 true).cfg.maxRetries.toNat) ∧
    (twOf .conn 1#8 0#8 true).cfg.connLimit = true ∧
    (twOf .conn 1#8 0#8 true).cfg.maxRetries.toNat ≤ (twOf .conn 1#8 0#8 true).retry.toNat := by decide

/-- The stop ended by a command, and by a step of each of the other three kinds. -/
theorem witness_NothingFiresWhileStopped :
    (TwInv (withTw stoppedTw).tw ∧ (withTw stoppedTw).tw.stopped = true) ∧
    (∃ (i : Instr) (s t : State), s.tw.stopped = true ∧ exec i s = .next t ∧ t.tw.stopped = false) ∧
    ∀ x ∈ [Stimulus.write .word 0x050 0x102#32, Stimulus.write .word 0x010 1#32, Stimulus.hwReset],
      ∃ t, step { withTw stoppedTw with trace := [x] } = .next t ∧ t.tw.stopped = false := by
  refine ⟨⟨twInv_stopped, rfl⟩, ⟨.twInit false, withTw stoppedTw, _, rfl, rfl, rfl⟩, ?_⟩
  simp only [List.forall_mem_cons, List.not_mem_nil, false_implies, implies_true, and_true]
  exact ⟨⟨_, rfl, rfl⟩, ⟨_, rfl, rfl⟩, ⟨_, rfl, rfl⟩⟩

/-- The edges of the regions of R86 and of R88's rules. -/
theorem witness_RefusedAccesses_ReadsHaveNoSideEffect :
    0x3FF < 0x400 ∧ 0x401 % 4 ≠ 0 ∧ 0xFFE % 4 ≠ 0 ∧ 0x800 ≤ 0x800 ∧ 0xBFC < 0xC00 ∧ 0xC00 ≤ 0xC00 ∧ 0xC00 % 4 = 0 ∧ 0xFFC % 4 = 0 ∧
    0x0C0 ≤ 0x0C0 ∧ 0x0C0 % 4 = 0 ∧ 0x0C0 ≤ 0x3FC ∧ 0x3FC % 4 = 0 ∧ 0x048 % 4 = 0 ∧ 0x0AC % 4 = 0 := by decide

theorem witness_ByteLanesAgree :
    0x400 % 4 = 0 ∧ 0x7FC % 4 = 0 ∧ 0x7FC < 0x800 ∧ 0xBFC % 4 = 0 ∧ 0xBFC < 0xC00 ∧ 0 < 4 ∧ 3 < 4 ∧ State.reset.pending = none := by decide

theorem witness_WritesWhileBusy :
    ({ State.reset with pending := some 0x21#32 } : State).pending = some 0x21#32 ∧ 0x7FF < 0x800 ∧ 0x7FC % 4 = 0 := by decide

/-- The N field at 0 and at 33, every MODE, and EVT with an entry. -/
theorem witness_RegisterWrites :
    State.reset.pending = none ∧ State.reset.evt = [] ∧
    (∀ w : Word, Mode.bits .off = w.extractLsb' 0 2 ∨ Mode.bits .gbn = w.extractLsb' 0 2 ∨ Mode.bits .sr = w.extractLsb' 0 2 ∨
      Mode.bits .conn = w.extractLsb' 0 2) ∧
    ({ State.reset with evt := events 64 } : State).evt = { kind := .retx, seq := 0#32, count := 1#16 } :: events 63 := by
  refine ⟨rfl, rfl, fun w => ?_, by decide⟩
  generalize w.extractLsb' 0 2 = b
  revert b; decide

theorem witness_DerivedRegisters :
    0 < 32 ∧ 31 < 32 ∧ TwInv (withTw srFour).tw ∧ QueueInv State.reset ∧ RbInv (withRb srRb none).rb ∧ State.reset.dlv = [] ∧
    State.reset.evt = [] ∧ QueueInv { State.reset with dlv := dlv64, evt := events 64 } ∧
    ({ State.reset with dlv := dlv64 } : State).dlv = entry 0#32 :: dlv63 :=
  ⟨by decide, by decide, twInv_srFour, queueInv_reset, rbInv_sr, rfl, rfl, ⟨by decide, by decide, by decide⟩, by decide⟩

theorem witness_ResetsRestoreEverything : (1#32).getLsbD 0 = true ∧ (0xFFFFFFFE#32).getLsbD 0 = false := by decide

/-- Every command of the frame leads to a next state somewhere. -/
theorem witness_TxWindowFrame :
    (∃ s t, exec .twAdmit s = .next t ∧ t.err = false) ∧ (∃ s t, exec .twAck s = .next t ∧ t.err = false) ∧
    (∃ s t, exec .twArm s = .next t ∧ t.err = false) ∧ (∃ s t, exec .twCancel s = .next t ∧ t.err = false) ∧
    (∃ s t, exec .twStop s = .next t ∧ t.err = false) ∧ (∃ s t, exec .rtoSample s = .next t ∧ t.err = false) ∧
    ∃ s t, exec (.twInit true) s = .next t ∧ t.err = false :=
  ⟨⟨withTw gbnFour, _, rfl, rfl⟩, ⟨withTw gbnFour, _, rfl, rfl⟩, ⟨withTw connArmed, _, rfl, rfl⟩, ⟨withTw connArmed, _, rfl, rfl⟩,
    ⟨withTw srFour, _, rfl, rfl⟩, ⟨State.reset, _, rfl, rfl⟩, ⟨State.reset, _, rfl, rfl⟩⟩

theorem witness_BufferWritingFrame :
    (∃ s t, exec (.encFrame 0) s = .next t ∧ t.err = false) ∧ (∃ s t, exec (.encSeg 0) s = .next t ∧ t.err = false) ∧
    (∃ s t, exec (.decFrame 9) s = .next t ∧ t.err = false) ∧ (∃ s t, exec (.decSeg 21) s = .next t ∧ t.err = false) ∧
    ∃ s t, exec .dlvPop s = .next t ∧ t.err = false :=
  ⟨⟨State.reset, _, rfl, rfl⟩, ⟨State.reset, _, rfl, rfl⟩, ⟨State.reset, _, rfl, rfl⟩, ⟨State.reset, _, rfl, rfl⟩,
    ⟨{ State.reset with dlv := dlv64 }, _, rfl, rfl⟩⟩

theorem witness_BufferKeepingFrame :
    (∃ s t, exec .nop s = .next t ∧ t.err = false) ∧ (∃ s t, exec (.clr true false true false) s = .next t ∧ t.err = false) ∧
    (∃ s t, exec .rbPush s = .next t ∧ t.err = false) ∧ ∃ s t, exec .rbSetexp s = .next t ∧ t.err = false :=
  ⟨⟨State.reset, _, rfl, rfl⟩, ⟨State.reset, _, rfl, rfl⟩, ⟨withRb srRb (some (frameLatch false 0#8 0#32 [])), _, rfl, rfl⟩,
    ⟨withRb srRb none, _, rfl, rfl⟩⟩

theorem witness_StepKeepsTwInv : ∃ s t : State, TwInv s.tw ∧ step s = .next t :=
  ⟨{ withTw srFour with trace := [.tick] }, _, twInv_srFour, rfl⟩

theorem witness_StepKeepsRbInv : ∃ s t : State, RbInv s.rb ∧ step s = .next t :=
  ⟨{ withRb connRb (some (segLatch true 1000#32 [1#8])) with pending := some 0x20#32 }, _, rbInv_conn, rfl⟩

/-- An SR unit with ticks left, and an expired one behind a full EVT. -/
theorem witness_StepLeavesNoExpiryWaiting :
    (∃ s t : State, TwInv s.tw ∧ NoExpiryWaits s ∧ step s = .next t) ∧
    ∃ s : State, TwInv s.tw ∧ NoExpiryWaits s ∧ s.tw.serveOldest true .skip ≠ none :=
  ⟨⟨withTw srFour, _, twInv_srFour, .inl rfl, rfl⟩,
    ⟨{ withTw { gbnFour with shared := { armed := true, rem := 0#24 } } with evt := events 64 },
      ⟨by decide, by decide, by decide, fun _ => by decide, by decide, by decide, by decide, by decide, by decide, by decide, by decide,
        by decide, by decide, by decide, by decide, by decide⟩, .inr (by decide), by decide⟩⟩

theorem latchInv_reset : LatchInv State.reset := fun _ h => by cases h

theorem memInv_reset : MemInv State.reset := ⟨rfl, fun _ h => by cases h⟩

theorem errInv_reset : ErrInv State.reset := ⟨by decide, by decide⟩

theorem witness_StepKeepsBounds_StepKeepsMemoryForm :
    ∃ s t : State, RbInv s.rb ∧ QueueInv s ∧ LatchInv s ∧ ErrInv s ∧ MemInv s ∧ step s = .next t :=
  ⟨State.reset, _, rbInv_reset, queueInv_reset, latchInv_reset, errInv_reset, memInv_reset, rfl⟩

/-- A host write, a host read and a tick. -/
theorem witness_OnlyCompletionsPublishResults :
    (∃ (s t : State) (x : Stimulus) (rest : List Stimulus), s.trace = x :: rest ∧ step s = .next t ∧ x ≠ .engine ∧ x ≠ .hwReset ∧
      (∀ size w, x ≠ .write size 0x010#12 w) ∧ ∀ size w, x ≠ .write size 0x090#12 w) ∧
    ∃ (s t : State) (x : Stimulus) (rest : List Stimulus), s.trace = x :: rest ∧ step s = .next t ∧ x = .tick :=
  ⟨⟨{ State.reset with trace := [.write .word 0x050#12 0x402#32] }, _, _, [], rfl, rfl, by simp, by simp, by simp, by simp⟩,
    ⟨{ withTw srFour with trace := [.tick] }, _, _, [], rfl, rfl, rfl⟩⟩

end Sys2Proof.Tests
end

section
/-! SUPPORT. Every command ends in one of two ways (60_exceptions.md R300, R301): it raises one error over the state it began from, or it
succeeds. The error of a completion follows from that. -/

namespace Sys2Proof.Machine

/-- A command that answers has either raised an error and changed nothing else, or written its results over some state. -/
theorem exec_raises_or_succeeds (i : Instr) (s t : State) (h : exec i s = .next t) :
    (∃ c : ErrCode, t = s.raise c) ∨ ∃ (u : State) (r : Results), t = u.succeed r := by
  cases i with
  | nop | clr | twInit | twStop | rtoSample => cases h; exact .inr ⟨_, _, rfl⟩
  | encFrame len => exact (execEncFrame_cases len s t h).imp_right fun ⟨r, _, _, _, ht⟩ => ⟨_, r, ht⟩
  | encSeg len => exact (execEncSeg_cases len s t h).imp_right fun ⟨r, _, _, _, ht⟩ => ⟨_, r, ht⟩
  | decFrame len =>
    obtain hc | ⟨-, r, ht⟩ | ⟨r, _, _, -, -, -, -, -, ht⟩ := execDecFrame_cases len s t h
    · exact .inl hc
    · exact .inr ⟨_, r, ht⟩
    · exact .inr ⟨_, r, ht⟩
  | decSeg len =>
    obtain hc | ⟨-, r, ht⟩ | ⟨r, _, _, -, -, -, -, -, ht⟩ := execDecSeg_cases len s t h
    · exact .inl hc
    · exact .inr ⟨_, r, ht⟩
    · exact .inr ⟨_, r, ht⟩
  | rbPush => exact (execRbPush_cases s t h).imp_right fun ⟨_, _, _, _, _, ht⟩ => ⟨_, _, ht⟩
  | rbSetexp => exact (execRbSetexp_cases s t h).imp_right fun ⟨r, ht⟩ => ⟨_, r, ht⟩
  | dlvPop => exact (execDlvPop_cases s t h).imp_right fun ⟨_, _, r, _, ht⟩ => ⟨_, r, ht⟩
  | twAdmit =>
    obtain hc | ⟨-, -, -, r, ⟨-, ht⟩ | ⟨-, _, -, -, ht⟩⟩ := execTwAdmit_cases s t h
    · exact .inl hc
    · exact .inr ⟨_, r, ht⟩
    · exact .inr ⟨_, r, ht⟩
  | twAck =>
    obtain hc | ⟨-, -, r, ⟨-, ht⟩ | ⟨-, ht⟩⟩ := execTwAck_cases s t h
    · exact .inl hc
    · exact .inr ⟨_, r, ht⟩
    · exact .inr ⟨_, r, ht⟩
  | twArm => exact (execTwArm_cases s t h).imp_right fun ⟨_, _, r, ht⟩ => ⟨_, r, ht⟩
  | twCancel => exact (execTwCancel_cases s t h).imp_right fun ⟨_, r, ht⟩ => ⟨_, r, ht⟩

/-- A command that leaves ERR = 1 has raised an error over the state it began from. -/
theorem exec_eq_raise_of_err (i : Instr) (s t : State) (h : exec i s = .next t) (he : t.err = true) :
    ∃ c : ErrCode, t = s.raise c := by
  obtain hc | ⟨u, r, rfl⟩ := exec_raises_or_succeeds i s t h
  · exact hc
  · simp at he

/-- A completion that leaves ERR = 1 has raised one error over the state with the pending command emptied, and run the arbiter. -/
theorem complete_eq_raise_of_err (s t : State) (w : Word) (hw : s.pending = some w) (h : complete s = .next t) (he : t.err = true) :
    ∃ c : ErrCode, t = (({ s with pending := none } : State).raise c).arbitrate := by
  obtain ⟨hn, -⟩ | ⟨_, -, ⟨i, u, -, hx, rfl⟩ | ⟨e, -, ht⟩⟩ := complete_next_cases s t h
  · simp [hn] at hw
  · obtain ⟨c, rfl⟩ := exec_eq_raise_of_err i _ u hx (by simpa using he)
    exact ⟨c, rfl⟩
  · exact ⟨errOfDecode e, ht⟩

/-- Settles O7: the error a completion raises has one of the ten codes, and raising it writes ERR and ERRCODE only. -/
theorem commandErrorsArePrecise : Obligations.CommandErrorsArePrecise := by
  unfold Obligations.CommandErrorsArePrecise
  intro s t w hw h he
  obtain ⟨c, rfl⟩ := complete_eq_raise_of_err s t w hw h he
  exact ⟨c.bits, c.bits_range.1, c.bits_range.2, by rw [raise_eq_failedWith]⟩

end Sys2Proof.Machine
end

section
/-! SUPPORT. RB under a step: what a step can do to it, said once, and that each of these keeps the invariant of RB (10_state.md R56). -/

namespace Sys2Proof.Machine

/-! ### What a step can do to RB -/

/-- A command leaves RB alone, commits the verdict of RB_PUSH, or frees every slot as RB_SETEXP does. -/
theorem exec_rb_cases (i : Instr) (s t : State) (h : exec i s = .next t) :
    t.rb = s.rb ∨ (∃ l, t.rb = (modeRule (l.type == Config.typeData) s.rb l).rb) ∨ t.rb = s.rb.setExp s.argWord := by
  cases i with
  | nop | clr | twInit | twStop | rtoSample => cases h; exact .inl rfl
  | encFrame len => obtain ⟨c, rfl⟩ | ⟨r, bs, -, -, rfl⟩ := execEncFrame_cases len s t h <;> exact .inl rfl
  | encSeg len => obtain ⟨c, rfl⟩ | ⟨r, bs, -, -, rfl⟩ := execEncSeg_cases len s t h <;> exact .inl rfl
  | decFrame len =>
    obtain ⟨c, rfl⟩ | ⟨-, r, rfl⟩ | ⟨r, l, p, -, -, -, -, -, rfl⟩ := execDecFrame_cases len s t h <;> exact .inl rfl
  | decSeg len =>
    obtain ⟨c, rfl⟩ | ⟨-, r, rfl⟩ | ⟨r, l, p, -, -, -, -, -, rfl⟩ := execDecSeg_cases len s t h <;> exact .inl rfl
  | rbPush =>
    obtain ⟨c, rfl⟩ | ⟨l, -, -, -, -, rfl⟩ := execRbPush_cases s t h
    · exact .inl rfl
    · exact .inr (.inl ⟨l, rfl⟩)
  | rbSetexp =>
    obtain ⟨c, rfl⟩ | ⟨r, rfl⟩ := execRbSetexp_cases s t h
    · exact .inl rfl
    · exact .inr (.inr rfl)
  | dlvPop => obtain ⟨c, rfl⟩ | ⟨e, q, r, -, rfl⟩ := execDlvPop_cases s t h <;> exact .inl rfl
  | twAdmit =>
    obtain ⟨c, rfl⟩ | ⟨-, -, -, r, ⟨-, rfl⟩ | ⟨-, j, -, -, rfl⟩⟩ := execTwAdmit_cases s t h <;> exact .inl rfl
  | twAck => obtain ⟨c, rfl⟩ | ⟨-, -, r, ⟨-, rfl⟩ | ⟨-, rfl⟩⟩ := execTwAck_cases s t h <;> exact .inl rfl
  | twArm => obtain ⟨c, rfl⟩ | ⟨-, -, r, rfl⟩ := execTwArm_cases s t h <;> exact .inl rfl
  | twCancel => obtain ⟨c, rfl⟩ | ⟨-, r, rfl⟩ := execTwCancel_cases s t h <;> exact .inl rfl

/-- A register write leaves RB alone, configures it, or resets it with the rest of the block. -/
theorem writeReg_rb_cases (s : State) (w : Word) (r : Reg) :
    (s.writeReg w r).rb = s.rb ∨ (∃ m n, (s.writeReg w r).rb = s.rb.configure m (warlN n)) ∨
      (s.writeReg w r).rb = Reorder.reset := by
  cases r with
  | ctrl => simp only [State.writeReg]; split <;> [exact .inr (.inr rfl); exact .inl rfl]
  | rbCfg => simp only [State.writeReg, State.unlessBusy]; split <;> [exact .inl rfl; exact .inr (.inl ⟨_, _, rfl⟩)]
  | evtPop => simp only [State.writeReg, State.popEvent]; split <;> exact .inl rfl
  | cmd => simp only [State.writeReg, State.writeCmd]; split <;> exact .inl rfl
  | arg0 | arg1 | arg2 | arg3 | twCfg | twTimeout => simp only [State.writeReg, State.unlessBusy]; split <;> exact .inl rfl
  | _ => exact .inl rfl

/-- Everything a step can do to RB. -/
theorem step_rb_cases (s t : State) (h : step s = .next t) :
    t.rb = s.rb ∨ (∃ l, t.rb = (modeRule (l.type == Config.typeData) s.rb l).rb) ∨ t.rb = s.rb.setExp s.argWord ∨
      (∃ m n, t.rb = s.rb.configure m (warlN n)) ∨ t.rb = Reorder.reset := by
  obtain ⟨rest, hc, -⟩ | ⟨x, rest, -, ⟨size, a, -, rfl⟩ | ⟨size, a, w, -, rfl⟩ | ⟨-, rfl⟩ | ⟨-, rfl⟩⟩ :=
    step_next_cases s t h
  · obtain ⟨-, rfl⟩ | ⟨w, -, ⟨i, u, -, hx, rfl⟩ | ⟨e, -, rfl⟩⟩ := complete_next_cases _ t hc
    · exact .inl rfl
    · obtain hu | hu | hu := exec_rb_cases i _ u hx
      · exact .inl hu
      · exact .inr (.inl hu)
      · exact .inr (.inr (.inl hu))
    · exact .inl rfl
  · obtain ⟨v, hr⟩ | hr := hostRead_cases { s with trace := rest } size a.toNat <;> exact .inl (by rw [hr])
  · obtain hw | hw | ⟨bs, -, -, -, hw⟩ | ⟨r, -, -, hw⟩ := hostWrite_cases { s with trace := rest } size a.toNat w
    · exact .inl (by rw [hw])
    · exact .inl (by rw [hw]; rfl)
    · exact .inl (by rw [hw])
    · rw [hw]
      obtain hr | hr | hr := writeReg_rb_cases { s with trace := rest } w r
      · exact .inl hr
      · exact .inr (.inr (.inr (.inl hr)))
      · exact .inr (.inr (.inr (.inr hr)))
  · exact .inl rfl
  · exact .inr (.inr (.inr (.inr rfl)))

/-! ### The invariant, one slot at a time -/

/-- What the invariant of RB asks of one valid slot in mode m, with this N and RB_EXP = x. -/
structure RbSlotInv (m : Mode) (n : BitVec 8) (x : Word) (r : RbSlot) : Prop where
  holdsSlots : m = .sr ∨ m = .conn
  payloadBound : r.payload.length ≤ Config.maxPayload
  connPayload : m = .conn → r.payload ≠ []
  srWindow : m = .sr → 0 < (dist x r.seq).toNat ∧ (dist x r.seq).toNat < n.toNat
  connAhead : m = .conn → ahead r.seq x = true

/-- The invariant of RB is the slot's own for every valid slot, with the count of slots, N, and no sequence held twice. -/
theorem rbInv_iff (rb : Reorder) :
    RbInv rb ↔ rb.slots.length = Config.robSlots ∧ (1 ≤ rb.n.toNat ∧ rb.n.toNat ≤ Config.winMax) ∧
      (rb.units.map (·.seq)).Nodup ∧ ∀ r ∈ rb.units, RbSlotInv rb.mode rb.n rb.exp r := by
  constructor
  · intro h
    refine ⟨h.slotCount, h.nLegal, h.unitsDistinct, fun r hr => ⟨?_, h.payloadBound r hr, fun hm => h.connPayload hm r hr,
      fun hm => h.srWindow hm r hr, fun hm => h.connAhead hm r hr⟩⟩
    have hslots : ¬(rb.mode = .gbn ∨ rb.mode = .off) := fun hm => by simp [h.noSlots hm] at hr
    cases hm : rb.mode <;> simp_all
  · rintro ⟨hcount, hn, hdistinct, hslot⟩
    exact {
      slotCount := hcount
      nLegal := hn
      unitsDistinct := hdistinct
      payloadBound := fun r hr => (hslot r hr).payloadBound
      connPayload := fun hm r hr => (hslot r hr).connPayload hm
      srWindow := fun hm r hr => (hslot r hr).srWindow hm
      connAhead := fun hm r hr => (hslot r hr).connAhead hm
      noSlots := fun hm => List.eq_nil_iff_forall_not_mem.mpr fun r hr => by
        obtain hs | hs := (hslot r hr).holdsSlots <;> simp [hs] at hm }

theorem RbInv.slot {rb : Reorder} (hrb : RbInv rb) {r : RbSlot} (hr : r ∈ rb.units) : RbSlotInv rb.mode rb.n rb.exp r :=
  ((rbInv_iff rb).mp hrb).2.2.2 r hr

/-! ### RB with no valid slot -/

/-- With no valid slot only the number of slots and N are left to hold. -/
theorem RbInv.of_units_nil {rb : Reorder} (hcount : rb.slots.length = Config.robSlots)
    (hn : 1 ≤ rb.n.toNat ∧ rb.n.toNat ≤ Config.winMax) (hunits : rb.units = []) : RbInv rb :=
  (rbInv_iff rb).mpr ⟨hcount, hn, by simp [hunits], by simp [hunits]⟩

theorem rbInv_resetReorder : RbInv Reorder.reset := .of_units_nil rfl (by decide) (units_replicate _)

theorem RbInv.setExp {rb : Reorder} (hrb : RbInv rb) (e : Word) : RbInv (rb.setExp e) :=
  .of_units_nil (by simp [Reorder.setExp, hrb.slotCount]) hrb.nLegal (by simp [Reorder.setExp, Reorder.units])

/-- A write of RB_CFG stores a legal N whatever it is given (10_state.md R43). -/
theorem RbInv.configure {rb : Reorder} (hrb : RbInv rb) (m : Mode) (n : BitVec 8) : RbInv (rb.configure m (warlN n)) :=
  .of_units_nil (by simp [Reorder.configure, hrb.slotCount])
    (by simp only [Reorder.configure, warlN_toNat, Config.winMax]; omega) (by simp [Reorder.configure, Reorder.units])

/-! ### An arrival buffered -/

/-- A free slot filled keeps the invariant where the new slot meets it and its sequence is not held yet. -/
theorem RbInv.set_free {rb : Reorder} (hrb : RbInv rb) {j : Nat} {u : RbSlot} (hj : rb.slots[j]? = some none)
    (hnew : ∀ r ∈ rb.units, r.seq ≠ u.seq) (hu : RbSlotInv rb.mode rb.n rb.exp u) :
    RbInv { rb with slots := rb.slots.set j (some u) } := by
  have hperm : ((rb.slots.set j (some u)).reduceOption).Perm (u :: rb.units) := units_set_some_perm rb.slots j u hj
  refine (rbInv_iff _).mpr ⟨by simp [hrb.slotCount], hrb.nLegal, ?_, fun r hr => ?_⟩
  · refine (hperm.map (·.seq)).nodup_iff.mpr (List.nodup_cons.mpr ⟨?_, hrb.unitsDistinct⟩)
    rw [List.mem_map]
    rintro ⟨r, hr, he⟩
    exact hnew r hr he
  · obtain rfl | hr := List.mem_cons.mp (hperm.mem_iff.mp hr)
    · exact hu
    · exact hrb.slot hr

/-- Buffering an arrival whose sequence is not held keeps the invariant. -/
theorem RbInv.buffer {rb : Reorder} (hrb : RbInv rb) {l : Latch} (k k' : Option Word)
    (hnew : ¬(findSeq l.seq rb.slots).isSome) (hu : RbSlotInv rb.mode rb.n rb.exp { seq := l.seq, payload := l.payload }) :
    RbInv (rb.buffer l k k').rb := by
  unfold Reorder.buffer
  split
  · next j hj =>
    exact hrb.set_free ((firstFree_eq_some _ _).mp hj).1 ((findSeq_eq_none _ _).mp (by simpa using hnew)) hu
  · exact hrb

/-! ### Slots freed by a delivery -/

theorem units_freeWhere (p : RbSlot → Bool) (slots : List (Option RbSlot)) :
    (freeWhere p slots).reduceOption = slots.reduceOption.filter fun r => !p r :=
  units_map_filter slots _

/-- RB_EXP moved to x and some slots freed keep the invariant where the slots that stay meet it for x. -/
theorem RbInv.advance {rb : Reorder} (hrb : RbInv rb) (x : Word) (p : RbSlot → Bool)
    (hstay : ∀ r ∈ rb.units, p r = false → RbSlotInv rb.mode rb.n x r) :
    RbInv { rb with exp := x, slots := freeWhere p rb.slots } := by
  have hunits : (freeWhere p rb.slots).reduceOption = rb.units.filter fun r => !p r := units_freeWhere p rb.slots
  refine (rbInv_iff _).mpr ⟨by simp [freeWhere, hrb.slotCount], hrb.nLegal, ?_, fun r hr => ?_⟩
  · rw [Reorder.units, hunits]
    exact hrb.unitsDistinct.sublist (List.filter_sublist.map _)
  · rw [Reorder.units, hunits, List.mem_filter, Bool.not_eq_true'] at hr
    exact hstay r hr.1 hr.2

/-! ### SR (41_reorder.md R186, R187) -/

/-- The SR drain delivers every sequence from its start up to where it ends. -/
theorem mem_seqsOf_srDrain (slots : List (Option RbSlot)) (n : Nat) (x : Word) (k : Nat) (hk : k < (srDrain slots n x).1.length) :
    x + BitVec.ofNat 32 k ∈ seqsOf (srDrain slots n x).1 ∧ ∃ r ∈ slots.reduceOption, r.seq = x + BitVec.ofNat 32 k := by
  obtain ⟨-, hent, -, -⟩ := srDrain_spec slots n x
  obtain ⟨hseq, hheld⟩ := hent k _ (List.getElem?_eq_getElem hk)
  exact ⟨List.mem_map.mpr ⟨_, List.getElem_mem hk, hseq⟩, _, hheld, hseq⟩

/-- After an in-order SR delivery every slot left lies inside the window ahead of the new RB_EXP: the drain stops before it has run
through N sequences, since no slot lies that far ahead. -/
theorem srDrain_leaves_inWindow {rb : Reorder} (hrb : RbInv rb) (hm : rb.mode = .sr) (r : RbSlot) (hr : r ∈ rb.units)
    (hout : r.seq ∉ seqsOf (srDrain rb.slots rb.slots.length (rb.exp + 1#32)).1) :
    0 < (dist (srDrain rb.slots rb.slots.length (rb.exp + 1#32)).2 r.seq).toNat ∧
      (dist (srDrain rb.slots rb.slots.length (rb.exp + 1#32)).2 r.seq).toNat < rb.n.toNat := by
  have hcount : rb.slots.length = 32 := hrb.slotCount
  have hN : rb.n.toNat ≤ 32 := hrb.nLegal.2
  have hdrained := mem_seqsOf_srDrain rb.slots rb.slots.length (rb.exp + 1#32)
  obtain ⟨hend, -, hle, hstop⟩ := srDrain_spec rb.slots rb.slots.length (rb.exp + 1#32)
  generalize srDrain rb.slots rb.slots.length (rb.exp + 1#32) = d at *
  have hshort : d.1.length < rb.slots.length := by
    by_contra hge
    obtain ⟨-, r', hr', hs'⟩ := hdrained 31 (by omega)
    have := hrb.srWindow hm r' hr'
    rw [hs'] at this; unfold dist at this; bv_omega
  have hne : r.seq ≠ d.2 := (findSeq_eq_none _ _).mp (hstop hshort) r hr
  obtain ⟨hpos, hlt⟩ := hrb.srWindow hm r hr
  have hfar : d.1.length < (dist rb.exp r.seq).toNat - 1 := by
    by_contra hge
    obtain hk | hk : (dist rb.exp r.seq).toNat - 1 < d.1.length ∨ (dist rb.exp r.seq).toNat - 1 = d.1.length := by omega
    · refine hout ?_
      have hk' := (hdrained _ hk).1
      rwa [show rb.exp + 1#32 + BitVec.ofNat 32 ((dist rb.exp r.seq).toNat - 1) = r.seq by unfold dist at *; bv_omega] at hk'
    · refine hne ?_
      rw [hend, ← hk]; unfold dist at *; bv_omega
  rw [hend]; unfold dist at *; bv_omega

theorem srRule_keeps_rbInv {rb : Reorder} (hrb : RbInv rb) (hm : rb.mode = .sr) (isData : Bool) (l : Latch) :
    RbInv (srRule isData rb l).rb := by
  unfold srRule
  dsimp only
  split_ifs with hok hdata hin hlen he hheld hbehind
  · exact hrb
  · exact hrb
  · exact hrb
  · rw [he]
    refine hrb.advance _ _ fun r hr hp => { hrb.slot hr with srWindow := fun _ => ?_, connAhead := by simp [hm] }
    exact srDrain_leaves_inWindow hrb hm r hr (by simpa using hp)
  · exact hrb
  · have hpos := mt (dist_eq_zero rb.exp l.seq).mp (Ne.symm he)
    exact hrb.buffer _ _ hheld {
      holdsSlots := .inl hm
      payloadBound := by simpa using hlen
      connPayload := by simp [hm]
      srWindow := fun _ => ⟨by bv_omega, by simpa [inwin] using hin⟩
      connAhead := by simp [hm] }
  · exact hrb
  · exact hrb

/-! ### CONN (41_reorder.md R193) -/

/-- The CONN drain runs forward: each entry it delivers starts a bounded number of bytes further on, and no two start at one byte. -/
theorem connDrain_seqs (slots : List (Option RbSlot)) (hne : ∀ r ∈ slots.reduceOption, r.payload ≠ [])
    (hlen : ∀ r ∈ slots.reduceOption, r.payload.length ≤ Config.maxPayload) (n : Nat) (hn : n ≤ Config.robSlots) (x : Word) :
    (∀ y ∈ seqsOf (connDrain slots n x).1, (dist x y).toNat < n * Config.maxPayload) ∧ (seqsOf (connDrain slots n x).1).Nodup := by
  induction n generalizing x with
  | zero => simp [connDrain, seqsOf]
  | succ n ih =>
    simp only [connDrain]
    split
    · simp [seqsOf]
    · next r hf =>
      have hr := (findSeq_mem _ _ _ hf).1
      have hpos : 0 < r.payload.length := List.length_pos_iff.mpr (hne r hr)
      have hmax : r.payload.length ≤ 1003 := hlen r hr
      obtain ⟨hfar, hnodup⟩ := ih (by omega) (afterPayload x r.payload)
      simp only [Config.maxPayload, Config.robSlots] at hfar hn ⊢
      have hbound : ∀ y ∈ seqsOf (connDrain slots n (afterPayload x r.payload)).1,
          0 < (dist x y).toNat ∧ (dist x y).toNat < (n + 1) * 1003 := by
        intro y hy
        have := hfar y hy
        unfold dist afterPayload at *; bv_omega
      refine ⟨?_, List.nodup_cons.mpr ⟨fun hx => ?_, hnodup⟩⟩
      · intro y hy
        obtain rfl | hy := List.mem_cons.mp hy
        · simp
        · exact (hbound y hy).2
      · simpa using (hbound x hx).1

/-- No slot that the CONN drain leaves holds the byte it ends at: it stops there for want of a slot, or it has delivered them all. -/
theorem connDrain_end_not_left {rb : Reorder} (hrb : RbInv rb) (hm : rb.mode = .conn) (x : Word) (r : RbSlot) (hr : r ∈ rb.units)
    (hout : r.seq ∉ seqsOf (connDrain rb.slots rb.slots.length x).1) : r.seq ≠ (connDrain rb.slots rb.slots.length x).2 := by
  obtain ⟨-, -, -, hheld, -, hle, hstop⟩ := connDrain_spec rb.slots rb.slots.length x
  obtain ⟨-, hnodup⟩ := connDrain_seqs rb.slots (hrb.connPayload hm) hrb.payloadBound _ hrb.slotCount.le x
  generalize connDrain rb.slots rb.slots.length x = d at *
  obtain hlt | hall := Nat.lt_or_eq_of_le hle
  · exact (findSeq_eq_none _ _).mp (hstop hlt) r hr
  · have hsub : seqsOf d.1 ⊆ rb.units.map (·.seq) := by
      intro y hy
      obtain ⟨e, he, rfl⟩ := List.mem_map.mp hy
      exact List.mem_map.mpr ⟨_, hheld e he, rfl⟩
    have hperm : (seqsOf d.1).Perm (rb.units.map (·.seq)) :=
      (List.subperm_of_subset hnodup hsub).perm_of_length_le (by
        simpa [seqsOf, hall, Reorder.units] using units_length_le rb.slots)
    exact absurd (hperm.mem_iff.mpr (List.mem_map_of_mem hr)) hout

/-- What is neither at x nor behind it is ahead of it. -/
theorem ahead_of_ne_of_not_behind (s x : Word) (hne : s ≠ x) (hb : behind s x = false) : ahead s x = true := by
  have := mt (dist_eq_zero x s).mp (Ne.symm hne)
  simp only [behind, ahead, decide_eq_true_eq, decide_eq_false_iff_not] at *
  bv_omega

/-- A payload replaced: every sequence held stays held in its place. -/
theorem replacePayload_seqs (k : Word) (p : List Byte) (l : List (Option RbSlot)) :
    (replacePayload k p l).map (·.map (·.seq)) = l.map (·.map (·.seq)) := by
  induction l with
  | nil => rfl
  | cons o l ih =>
    cases o with
    | none => simpa [replacePayload] using ih
    | some u => by_cases hu : u.seq = k <;> simp [replacePayload, hu, ih]

/-- A payload replaced: every unit is one held before, or one held before with the new payload. -/
theorem mem_units_replacePayload (k : Word) (p : List Byte) (l : List (Option RbSlot)) (r : RbSlot)
    (hr : r ∈ (replacePayload k p l).reduceOption) :
    r ∈ l.reduceOption ∨ ∃ u ∈ l.reduceOption, r = { u with payload := p } := by
  induction l with
  | nil => simp [replacePayload] at hr
  | cons o l ih =>
    cases o with
    | none => simpa using ih (by simpa [replacePayload] using hr)
    | some u =>
      by_cases hu : u.seq = k
      · simp only [replacePayload, hu, if_true, List.reduceOption_cons_of_some, List.mem_cons] at hr ⊢
        obtain rfl | hr := hr
        · exact .inr ⟨u, .inl rfl, by rw [hu]⟩
        · exact .inl (.inr hr)
      · simp only [replacePayload, hu, if_false, List.reduceOption_cons_of_some, List.mem_cons] at hr ⊢
        obtain rfl | hr := hr
        · exact .inl (.inl rfl)
        · exact (ih hr).imp .inr fun ⟨v, hv, he⟩ => ⟨v, .inr hv, he⟩

/-- A payload replaced by one that a slot of this mode may hold keeps the invariant. -/
theorem RbInv.replacePayload {rb : Reorder} (hrb : RbInv rb) (k : Word) {p : List Byte} (hne : p ≠ [])
    (hlen : p.length ≤ Config.maxPayload) : RbInv { rb with slots := replacePayload k p rb.slots } := by
  have hseqs := replacePayload_seqs k p rb.slots
  refine (rbInv_iff _).mpr ⟨?_, hrb.nLegal, ?_, fun r hr => ?_⟩
  · simpa [hrb.slotCount] using congrArg List.length hseqs
  · have hunits := congrArg List.reduceOption hseqs
    rw [units_map_map, units_map_map] at hunits
    exact hunits ▸ hrb.unitsDistinct
  · obtain hr | ⟨u, hu, rfl⟩ := mem_units_replacePayload k p _ r hr
    · exact hrb.slot hr
    · exact { hrb.slot hu with payloadBound := hlen, connPayload := fun _ => hne }

theorem connRule_keeps_rbInv {rb : Reorder} (hrb : RbInv rb) (hm : rb.mode = .conn) (l : Latch) : RbInv (connRule rb l).rb := by
  unfold connRule
  dsimp only
  split_ifs with hok hempty hlen he hah hheld
  · exact hrb
  · exact hrb
  · exact hrb
  · refine hrb.advance _ _ fun r hr hp => { hrb.slot hr with srWindow := by simp [hm], connAhead := fun _ => ?_ }
    simp only [Bool.or_eq_false_iff, List.contains_eq_mem, decide_eq_false_iff_not] at hp
    exact ahead_of_ne_of_not_behind _ _ (connDrain_end_not_left hrb hm _ r hr hp.1) hp.2
  · exact hrb.replacePayload _ (by simpa using hempty) (by omega)
  · exact hrb.buffer _ _ hheld {
      holdsSlots := .inr hm
      payloadBound := by simpa using hlen
      connPayload := fun _ => by simpa using hempty
      srWindow := by simp [hm]
      connAhead := fun _ => hah }
  · exact hrb

/-! ### GBN (41_reorder.md R183), and the rule of every mode -/

theorem gbnRule_keeps_rbInv {rb : Reorder} (hrb : RbInv rb) (hm : rb.mode = .gbn) (isData : Bool) (l : Latch) :
    RbInv (gbnRule isData rb l).rb := by
  unfold gbnRule
  dsimp only
  split_ifs with hok hdata hseq hlen
  · exact hrb
  · exact hrb
  · exact hrb
  · exact hrb
  · exact .of_units_nil hrb.slotCount hrb.nLegal (hrb.noSlots (.inl hm))

theorem modeRule_keeps_rbInv {rb : Reorder} (hrb : RbInv rb) (isData : Bool) (l : Latch) : RbInv (modeRule isData rb l).rb := by
  unfold modeRule
  split
  · next hm => exact gbnRule_keeps_rbInv hrb hm isData l
  · next hm => exact srRule_keeps_rbInv hrb hm isData l
  · next hm => exact connRule_keeps_rbInv hrb hm l
  · exact hrb

/-- Settles O56: of the five things a step can do to RB, each keeps its invariant. -/
theorem stepKeepsRbInv : Obligations.StepKeepsRbInv := by
  unfold Obligations.StepKeepsRbInv
  intro s t hrb h
  obtain ht | ⟨l, ht⟩ | ht | ⟨m, n, ht⟩ | ht := step_rb_cases s t h <;> rw [ht]
  · exact hrb
  · exact modeRule_keeps_rbInv hrb _ l
  · exact hrb.setExp _
  · exact hrb.configure m n
  · exact rbInv_resetReorder

end Sys2Proof.Machine
end

section
/-! SUPPORT. The registers that are computed and not stored (10_state.md R37-R39, R44-R46): what each of their bits and fields reads as. -/

namespace Sys2Proof.Machine

/-! ### TW_ACKMAP and RB_MAP (R37, R44) -/

theorem TxWindow.ackMap_getLsbD (tw : TxWindow) (i : Nat) (hi : i < 32) :
    tw.ackMap.getLsbD i = true ↔
      tw.cfg.mode = .sr ∧ i < (dist tw.base tw.next).toNat ∧ tw.acked (tw.base + BitVec.ofNat 32 i) = true := by
  unfold TxWindow.ackMap
  split
  · next hm =>
    rw [bitmap_getLsbD _ _ hi, Bool.and_eq_true, decide_eq_true_eq]
    exact (and_iff_right hm).symm
  · next hm => simpa using fun h => (hm h).elim

theorem Reorder.map_getLsbD (rb : Reorder) (i : Nat) (hi : i < 32) :
    rb.map.getLsbD i = true ↔ rb.mode = .sr ∧ ∃ r ∈ rb.units, r.seq = rb.exp + BitVec.ofNat 32 i := by
  unfold Reorder.map
  split
  · next hm =>
    rw [bitmap_getLsbD _ _ hi, findSeq_isSome]
    exact (and_iff_right hm).symm
  · next hm => simpa using fun h => (hm h).elim

/-! ### TW_TSTAT and TW_SREM (R38, R39) -/

/-- A bit of a register that holds one flag at place i. -/
theorem bitAt_getLsbD (b : Bool) (i j : Nat) (hj : j < 32) : (bitAt b i).getLsbD j = (b && decide (j = i)) := by
  cases b with
  | false => simp [bitAt, bitNat]
  | true =>
    simp only [bitAt, bitNat, if_true, BitVec.getLsbD_shiftLeft, BitVec.getLsbD_one, hj]
    by_cases h : j = i <;> simp [h]
    omega

/-- TW_TSTAT bit by bit: two flags, and two counts of 8 bits from bit 8 and from bit 16. -/
theorem TxWindow.tstat_getLsbD (tw : TxWindow) (i : Nat) (hi : i < 32) :
    tw.tstat.getLsbD i =
      (tw.shared.armed && decide (i = 0) || tw.shared.expired && decide (i = 1) ||
        !decide (i < 8) && (BitVec.ofNat 8 tw.liveSlots).getLsbD (i - 8) ||
        !decide (i < 16) && (BitVec.ofNat 8 tw.expiredSlots).getLsbD (i - 16)) := by
  have h8 : i - 8 < 32 := by omega
  have h16 : i - 16 < 32 := by omega
  simp only [TxWindow.tstat, BitVec.getLsbD_or, BitVec.getLsbD_shiftLeft, BitVec.getLsbD_setWidth, bitAt_getLsbD _ _ _ hi, hi, h8, h16,
    decide_true, Bool.true_and]

theorem TxWindow.tstat_armed (tw : TxWindow) : tw.tstat.getLsbD 0 = tw.shared.armed := by
  rw [tw.tstat_getLsbD 0 (by decide)]
  simp

theorem TxWindow.tstat_expired (tw : TxWindow) : tw.tstat.getLsbD 1 = (tw.shared.armed && decide (tw.shared.rem = 0#24)) := by
  rw [tw.tstat_getLsbD 1 (by decide)]
  simp [SharedTimer.expired, beq_eq_decide]

theorem TxWindow.tstat_liveField (tw : TxWindow) : tw.tstat.extractLsb' 8 8 = BitVec.ofNat 8 tw.liveSlots := by
  apply BitVec.eq_of_getLsbD_eq
  intro j hj
  rw [BitVec.getLsbD_extractLsb', tw.tstat_getLsbD _ (by omega)]
  simp [hj, show 8 + j < 16 by omega, show 8 + j ≠ 1 by omega]

theorem TxWindow.tstat_expiredField (tw : TxWindow) : tw.tstat.extractLsb' 16 8 = BitVec.ofNat 8 tw.expiredSlots := by
  apply BitVec.eq_of_getLsbD_eq
  intro j hj
  rw [BitVec.getLsbD_extractLsb', tw.tstat_getLsbD _ (by omega)]
  simp [hj, show 16 + j ≠ 1 by omega, BitVec.getLsbD_of_ge (BitVec.ofNat 8 tw.liveSlots) (16 + j - 8) (by omega)]

theorem TxWindow.tstat_reserved_low (tw : TxWindow) : tw.tstat.extractLsb' 2 6 = 0#6 := by
  apply BitVec.eq_of_getLsbD_eq
  intro j hj
  rw [BitVec.getLsbD_extractLsb', tw.tstat_getLsbD _ (by omega)]
  simp [show 2 + j ≠ 1 by omega, show 2 + j < 8 by omega, show 2 + j < 16 by omega]

theorem TxWindow.tstat_reserved_high (tw : TxWindow) : tw.tstat.extractLsb' 24 8 = 0#8 := by
  apply BitVec.eq_of_getLsbD_eq
  intro j hj
  rw [BitVec.getLsbD_extractLsb', tw.tstat_getLsbD _ (by omega)]
  simp [show 24 + j ≠ 1 by omega, BitVec.getLsbD_of_ge (BitVec.ofNat 8 tw.liveSlots) (24 + j - 8) (by omega),
    BitVec.getLsbD_of_ge (BitVec.ofNat 8 tw.expiredSlots) (24 + j - 16) (by omega)]

theorem TxWindow.liveSlots_eq (tw : TxWindow) : tw.liveSlots = tw.units.length := countP_isSome tw.slots

theorem TxWindow.expiredSlots_eq (tw : TxWindow) :
    tw.expiredSlots = (tw.units.filter fun t => decide (t.rem = 0#24)).length := by
  rw [← List.countP_eq_length_filter, TxWindow.expiredSlots, TxWindow.units]
  induction tw.slots with
  | nil => rfl
  | cons o r ih => cases o <;> simp [List.countP_cons, ih]

/-- A count of slots fits its 8-bit field. -/
theorem TwInv.units_lt {tw : TxWindow} (h : TwInv tw) : tw.units.length < 2 ^ 8 := by
  have hcount : tw.slots.length = 64 := h.slotCount
  have hle : tw.units.length ≤ tw.slots.length := units_length_le tw.slots
  omega

/-- A disarmed timer's count is 0, so TW_SREM reads the count itself. -/
theorem TwInv.srem_eq {tw : TxWindow} (h : TwInv tw) : tw.srem = tw.shared.rem.setWidth 32 := by
  unfold TxWindow.srem
  split
  · rfl
  · next ha => simp [h.disarmedRem (by simpa using ha)]

/-! ### EVT_HEAD and the counts (R44-R46) -/

/-- The head register of a queue whose first event is e: the type, 12 reserved bits, the count. -/
theorem evtHead_fields (k : BitVec 4) (c : BitVec 16) :
    (k.setWidth 32 ||| (c.setWidth 32 <<< 16) : Word).extractLsb' 0 4 = k ∧
    (k.setWidth 32 ||| (c.setWidth 32 <<< 16) : Word).extractLsb' 4 12 = 0#12 ∧
    (k.setWidth 32 ||| (c.setWidth 32 <<< 16) : Word).extractLsb' 16 16 = c := by
  refine ⟨?_, ?_, ?_⟩ <;> apply BitVec.eq_of_getLsbD_eq <;> intro j hj <;>
    simp only [BitVec.getLsbD_extractLsb', BitVec.getLsbD_or, BitVec.getLsbD_shiftLeft, BitVec.getLsbD_setWidth]
  · simp [hj, show j < 32 by omega, show j < 16 by omega]
  · simp [show 4 + j < 16 by omega]
  · simp [hj, show 16 + j < 32 by omega, show j < 32 by omega, BitVec.getLsbD_of_ge k (16 + j) (by omega)]

theorem State.evtHead_reserved (s : State) : s.evtHead.extractLsb' 4 12 = 0#12 := by
  unfold State.evtHead
  split
  · decide
  · exact (evtHead_fields _ _).2.1

/-- A count below 2^8 reads as itself. -/
theorem count8_toNat (n : Nat) (h : n < 2 ^ 8) : (count8 n).toNat = n := by
  simp only [count8, BitVec.toNat_setWidth, BitVec.toNat_ofNat]
  omega

theorem RbInv.occupied_toNat {rb : Reorder} (h : RbInv rb) : (count8 rb.occupied).toNat = rb.units.length := by
  have hcount : rb.slots.length = 32 := h.slotCount
  have hle : rb.units.length ≤ rb.slots.length := units_length_le rb.slots
  have hocc : rb.occupied = rb.units.length := countP_isSome rb.slots
  rw [count8_toNat _ (by omega), hocc]

/-- Settles O49, each register by the lemma about it. -/
theorem derivedRegisters : Obligations.DerivedRegisters := by
  unfold Obligations.DerivedRegisters
  refine ⟨⟨rfl, rfl, rfl, rfl, rfl⟩, fun s => ⟨s.tw.tstat_reserved_low, s.tw.tstat_reserved_high, s.evtHead_reserved⟩,
    fun s i hi => ⟨s.tw.ackMap_getLsbD i hi, s.rb.map_getLsbD i hi⟩, fun s htw => ?_, fun s hq => ?_, fun s hrb => hrb.occupied_toNat⟩
  · refine ⟨s.tw.tstat_armed, s.tw.tstat_expired, ?_, ?_, htw.srem_eq⟩
    · rw [State.readReg, s.tw.tstat_liveField, s.tw.liveSlots_eq, BitVec.toNat_ofNat, Nat.mod_eq_of_lt htw.units_lt]
    · have hle := List.length_filter_le (fun t : TimerSlot => decide (t.rem = 0#24)) s.tw.units
      rw [State.readReg, s.tw.tstat_expiredField, s.tw.expiredSlots_eq, BitVec.toNat_ofNat,
        Nat.mod_eq_of_lt (hle.trans_lt htw.units_lt)]
  · obtain ⟨hdlv, hevt, hpay⟩ := hq
    refine ⟨count8_toNat _ (hdlv.trans_lt (by decide)), count8_toNat _ (hevt.trans_lt (by decide)), fun h => ?_,
      fun e r h => ?_, fun h => ?_, fun e r h => ?_⟩
    · simp [State.readReg, State.dlvHlen, State.dlvHseq, h]
    · have hlen : e.payload.length ≤ 1003 := hpay e (by simp [h])
      simp [State.readReg, State.dlvHlen, State.dlvHseq, h, ofNat16_setWidth _ (show e.payload.length < 65536 by omega),
        show e.payload.length < 4294967296 by omega]
    · simp [State.readReg, State.evtHead, State.evtSeq, h]
    · obtain ⟨hkind, -, hcount⟩ := evtHead_fields e.kind.bits e.count
      simp [State.readReg, State.evtHead, State.evtSeq, h, hkind, hcount]

end Sys2Proof.Machine
end

section
/-! SUPPORT. The host port (20_memory.md R81-R89): what an access does, region by region, and which accesses are refused. -/

namespace Sys2Proof.Machine

/-! ### The regions (R86) -/

theorem regionOf_regs {a : Nat} (h : a < 0x400) : regionOf a = .regs := if_pos h

theorem regionOf_ibuf {a : Nat} (hlo : 0x400 ≤ a) (hhi : a < 0x800) : regionOf a = .ibuf := by
  simp [regionOf, hhi, Nat.not_lt.mpr hlo]

theorem regionOf_obuf {a : Nat} (hlo : 0x800 ≤ a) (hhi : a < 0xC00) : regionOf a = .obuf := by
  simp [regionOf, hhi, Nat.not_lt.mpr hlo, show ¬ a < 0x400 by omega]

theorem regionOf_reserved {a : Nat} (h : 0xC00 ≤ a) : regionOf a = .reserved := by
  simp [regionOf, show ¬ a < 0x400 by omega, show ¬ a < 0x800 by omega, show ¬ a < 0xC00 by omega]

theorem regionOf_eq_regs_iff (a : Nat) : regionOf a = .regs ↔ a < 0x400 := by
  unfold regionOf
  split_ifs <;> simp_all

/-! ### The accesses that their size and address alone refuse (R88) -/

/-- An 8-bit access to the registers, or a misaligned 32-bit access. -/
def Unsupported (size : AccessSize) (a : Nat) : Prop := size = .byte ∧ a < 0x400 ∨ size = .word ∧ a % 4 ≠ 0

theorem State.readData_eq_none_iff (s : State) (size : AccessSize) (a : Nat) : s.readData size a = none ↔ Unsupported size a := by
  cases size with
  | byte =>
    simp only [Unsupported, State.readData, true_and, reduceCtorEq, false_and, or_false]
    rw [← regionOf_eq_regs_iff]
    cases regionOf a <;> simp
  | word =>
    simp only [Unsupported, State.readData, reduceCtorEq, false_and, true_and, false_or]
    split_ifs with h
    · cases regionOf a <;> simp [h]
    · simp [h]

theorem State.hostRead_of_readData {s : State} {size : AccessSize} {a : Nat} {v : Word} (h : s.readData size a = some v) :
    s.hostRead size a = { s with rdata := v } := by
  rw [State.hostRead, h]

theorem State.hostRead_of_unsupported (s : State) {size : AccessSize} {a : Nat} (h : Unsupported size a) :
    s.hostRead size a = { s with accErr := true, rdata := 0#32 } := by
  rw [State.hostRead, (s.readData_eq_none_iff size a).mpr h, State.refuse]

theorem State.hostWrite_of_unsupported (s : State) {size : AccessSize} {a : Nat} (h : Unsupported size a) (w : Word) :
    s.hostWrite size a w = { s with accErr := true } := by
  obtain ⟨rfl, ha⟩ | ⟨rfl, ha⟩ := h
  · simp only [State.hostWrite, regionOf_regs ha, State.refuse]
  · simp only [State.hostWrite, if_neg ha, State.refuse]

theorem State.hostWrite_obuf (s : State) (size : AccessSize) {a : Nat} (hlo : 0x800 ≤ a) (hhi : a < 0xC00) (w : Word) :
    s.hostWrite size a w = { s with accErr := true } := by
  cases size <;> simp [State.hostWrite, regionOf_obuf hlo hhi, State.refuse]

/-! ### The reserved region (R87) -/

theorem State.readData_reserved (s : State) {size : AccessSize} {a : Nat} (ha : 0xC00 ≤ a) (hal : size = .word → a % 4 = 0) :
    s.readData size a = some 0#32 := by
  cases size with
  | byte => simp only [State.readData, regionOf_reserved ha]
  | word => simp only [State.readData, regionOf_reserved ha, hal rfl, if_true]

theorem State.hostWrite_reserved (s : State) {size : AccessSize} {a : Nat} (ha : 0xC00 ≤ a) (hal : size = .word → a % 4 = 0) (w : Word) :
    s.hostWrite size a w = s := by
  cases size with
  | byte => simp only [State.hostWrite, regionOf_reserved ha]
  | word => simp only [State.hostWrite, regionOf_reserved ha, hal rfl, if_true]

/-! ### The registers (R87, R89) -/

theorem State.readData_word_regs (s : State) {a : Nat} (ha : a < 0x400) (hal : a % 4 = 0) :
    s.readData .word a = some (((regAt a).map s.readReg).getD 0#32) := by
  simp only [State.readData, regionOf_regs ha, hal, if_true]

theorem State.hostWrite_word_regs (s : State) {a : Nat} (ha : a < 0x400) (hal : a % 4 = 0) (w : Word) :
    s.hostWrite .word a w = ((regAt a).map (s.writeReg w)).getD s := by
  simp only [State.hostWrite, regionOf_regs ha, hal, if_true]

/-- Every register is a 32-bit word below 0x0C0 (10_state.md register map). -/
theorem regAt_bounds {a : Nat} {r : Reg} (h : regAt a = some r) : a < 0x0C0 ∧ a % 4 = 0 := by
  unfold regAt at h
  split at h <;> simp at h ⊢

theorem State.hostRead_reg (s : State) {a : Nat} {r : Reg} (h : regAt a = some r) :
    s.hostRead .word a = { s with rdata := s.readReg r } := by
  obtain ⟨ha, hal⟩ := regAt_bounds h
  refine State.hostRead_of_readData ?_
  rw [s.readData_word_regs (by omega) hal, h]
  rfl

theorem State.hostWrite_reg (s : State) {a : Nat} {r : Reg} (h : regAt a = some r) (w : Word) :
    s.hostWrite .word a w = s.writeReg w r := by
  obtain ⟨ha, hal⟩ := regAt_bounds h
  rw [s.hostWrite_word_regs (by omega) hal, h]
  rfl

/-- The offsets that hold no register: five gaps, and everything from 0x0C0 on. -/
theorem regAt_eq_none {a : Nat} (h : a ∈ [0x048, 0x04C, 0x088, 0x08C, 0x0AC] ∨ 0x0C0 ≤ a) : regAt a = none := by
  obtain hgap | hhigh := h
  · revert a
    decide
  · exact Option.eq_none_iff_forall_ne_some.mpr fun r hr => absurd (regAt_bounds hr).1 (by omega)

/-- The registers that a write may change (43_control.md R282); every other one is read-only. -/
def writableRegs : List Reg :=
  [.ctrl, .status, .irqEn, .cmd, .arg0, .arg1, .arg2, .arg3, .twCfg, .twTimeout, .rbCfg, .evtPop]

theorem State.writeReg_readOnly (s : State) (w : Word) {r : Reg} (h : r ∉ writableRegs) : s.writeReg w r = s := by
  cases r with
  | ctrl | status | irqEn | cmd | arg0 | arg1 | arg2 | arg3 | twCfg | twTimeout | rbCfg | evtPop => exact absurd (by decide) h
  | _ => rfl

/-! ### A read has no side effect (R89) -/

@[simp] theorem State.readReg_rdata (s : State) (v : Word) (r : Reg) : ({ s with rdata := v } : State).readReg r = s.readReg r := by
  cases r <;> rfl

/-- What a read returns does not depend on what the read before it returned. -/
@[simp] theorem State.readData_rdata (s : State) (v : Word) (size : AccessSize) (a : Nat) :
    ({ s with rdata := v } : State).readData size a = s.readData size a := by
  have hreg : ({ s with rdata := v } : State).readReg = s.readReg := funext (s.readReg_rdata v)
  unfold State.readData
  rw [hreg]

theorem State.hostRead_frame (s : State) (size : AccessSize) (a : Nat) :
    { s.hostRead size a with rdata := s.rdata, accErr := s.accErr } = s := by
  obtain ⟨v, h⟩ | h := hostRead_cases s size a <;> rw [h]

theorem State.hostRead_hostRead_rdata (s : State) (size : AccessSize) (a : Nat) :
    ((s.hostRead size a).hostRead size a).rdata = (s.hostRead size a).rdata := by
  cases hd : s.readData size a with
  | some v =>
    rw [State.hostRead_of_readData hd]
    exact congrArg State.rdata (State.hostRead_of_readData ((s.readData_rdata v size a).trans hd))
  | none =>
    have hun := (s.readData_eq_none_iff size a).mp hd
    rw [State.hostRead_of_unsupported _ hun, s.hostRead_of_unsupported hun]

theorem State.hostRead_accErr_iff (s : State) (size : AccessSize) (a : Nat) :
    (s.hostRead size a).accErr = true ↔ s.accErr = true ∨ Unsupported size a := by
  rw [← s.readData_eq_none_iff]
  cases hd : s.readData size a with
  | some v => simp [State.hostRead_of_readData hd]
  | none => simp [s.hostRead_of_unsupported ((s.readData_eq_none_iff size a).mp hd)]

/-! ### The buffers (R83, R84) -/

theorem State.readData_byte_buffer (s : State) {a : Nat} (hlo : 0x400 ≤ a) (hhi : a < 0xC00) :
    s.readData .byte a = some ((s.mem.byteAt a).setWidth 32) := by
  obtain h | h := Nat.lt_or_ge a 0x800
  · simp only [State.readData, regionOf_ibuf hlo h]
  · simp only [State.readData, regionOf_obuf h hhi]

theorem State.readData_word_buffer (s : State) {a : Nat} (hal : a % 4 = 0) (hlo : 0x400 ≤ a) (hhi : a < 0xC00) :
    s.readData .word a = some (s.mem.wordAt a) := by
  obtain h | h := Nat.lt_or_ge a 0x800
  · simp only [State.readData, hal, if_true, regionOf_ibuf hlo h]
  · simp only [State.readData, hal, if_true, regionOf_obuf h hhi]

theorem State.writeIbuf_idle {s : State} (hp : s.pending = none) (a : Nat) (bs : List Byte) :
    s.writeIbuf a bs = { s with mem := s.mem.setBytes a bs } := by
  simp [State.writeIbuf, State.unlessBusy, State.busy, hp]

theorem State.hostWrite_byte_ibuf {s : State} (hp : s.pending = none) {a : Nat} (hlo : 0x400 ≤ a) (hhi : a < 0x800) (w : Word) :
    s.hostWrite .byte a w = { s with mem := s.mem.setByte a (w.extractLsb' 0 8) } := by
  simp only [State.hostWrite, regionOf_ibuf hlo hhi]
  exact State.writeIbuf_idle hp a _

theorem State.hostWrite_word_ibuf {s : State} (hp : s.pending = none) {a : Nat} (hal : a % 4 = 0) (hlo : 0x400 ≤ a) (hhi : a < 0x800)
    (w : Word) : s.hostWrite .word a w = { s with mem := s.mem.setBytes a (lanes w) } := by
  simp only [State.hostWrite, hal, if_true, regionOf_ibuf hlo hhi]
  exact State.writeIbuf_idle hp a _

/-! ### Little-endian lanes (R83) -/

theorem and_0xFF (x : Word) : x &&& 0xFF#32 = (x.setWidth 8).setWidth 32 := by
  apply BitVec.eq_of_toNat_eq
  have hmod : x.toNat &&& 255 = x.toNat % 256 := Nat.and_two_pow_sub_one_eq_mod x.toNat 8
  rw [BitVec.toNat_and, BitVec.toNat_setWidth, BitVec.toNat_setWidth, BitVec.toNat_ofNat, hmod]
  omega

/-- Lane k of a word is its byte at bit 8k. -/
theorem lanes_getElem (w : Word) {k : Nat} (hk : k < 4) : (lanes w)[k]'(by simpa using hk) = (w >>> (8 * k)).setWidth 8 := by
  interval_cases k <;> rfl

/-- The four bytes of a word put together, read back lane by lane. -/
theorem lanes_fromLanes (b0 b1 b2 b3 : Byte) : lanes (fromLanes b0 b1 b2 b3) = [b0, b1, b2, b3] := by
  have below {n : Nat} (x : Byte) (y : BitVec n) (i : Nat) (hi : i + 8 ≤ n) : (x ++ y).extractLsb' i 8 = y.extractLsb' i 8 :=
    BitVec.extractLsb'_append_eq_of_add_le hi
  have h0 : (fromLanes b0 b1 b2 b3).extractLsb' 0 8 = b0 :=
    calc _ = (b2 ++ (b1 ++ b0)).extractLsb' 0 8 := below b3 _ 0 (by decide)
      _ = (b1 ++ b0).extractLsb' 0 8 := below b2 _ 0 (by decide)
      _ = b0 := BitVec.extractLsb'_append_eq_right
  have h1 : (fromLanes b0 b1 b2 b3).extractLsb' 8 8 = b1 :=
    calc _ = (b2 ++ (b1 ++ b0)).extractLsb' 8 8 := below b3 _ 8 (by decide)
      _ = (b1 ++ b0).extractLsb' 8 8 := below b2 _ 8 (by decide)
      _ = b1 := BitVec.extractLsb'_append_eq_left
  have h2 : (fromLanes b0 b1 b2 b3).extractLsb' 16 8 = b2 :=
    calc _ = (b2 ++ (b1 ++ b0)).extractLsb' 16 8 := below b3 _ 16 (by decide)
      _ = b2 := BitVec.extractLsb'_append_eq_left
  have h3 : (fromLanes b0 b1 b2 b3).extractLsb' 24 8 = b3 := BitVec.extractLsb'_append_eq_left (b := b2 ++ (b1 ++ b0))
  rw [lanes, h0, h1, h2, h3]

theorem Memory.lanes_wordAt (m : Memory) (a : Nat) : lanes (m.wordAt a) = m.bytes a 4 := lanes_fromLanes ..

/-- Bits [8k+7:8k] of the word read are the byte stored at its lane. -/
theorem Memory.wordAt_lane (m : Memory) (a : Nat) {k : Nat} (hk : k < 4) :
    (m.wordAt a >>> (8 * k)) &&& 0xFF#32 = (m.byteAt (a + k)).setWidth 32 := by
  rw [and_0xFF, ← lanes_getElem _ hk]
  simp only [m.lanes_wordAt a, Memory.bytes_getElem]

/-! ### The obligations -/

/-- Settles O42: the size or the region refuses the access. -/
theorem refusedAccesses : Obligations.RefusedAccesses := by
  unfold Obligations.RefusedAccesses
  intro s a w
  refine ⟨fun ha => ?_, fun ha => ?_, fun hlo hhi size => s.hostWrite_obuf size hlo hhi w⟩
  · have h : Unsupported .byte a := .inl ⟨rfl, ha⟩
    exact ⟨s.hostRead_of_unsupported h, s.hostWrite_of_unsupported h w⟩
  · have h : Unsupported .word a := .inr ⟨rfl, ha⟩
    exact ⟨s.hostRead_of_unsupported h, s.hostWrite_of_unsupported h w⟩

/-- Settles O43, a read by the lemmas about it and a write by the register, if any, at its offset. -/
theorem readsHaveNoSideEffect : Obligations.ReadsHaveNoSideEffect := by
  unfold Obligations.ReadsHaveNoSideEffect
  refine ⟨fun s size a => ⟨s.hostRead_frame size a, s.hostRead_hostRead_rdata size a, s.hostRead_accErr_iff size a⟩,
    fun s size a w ha hal => ⟨State.hostRead_of_readData (s.readData_reserved ha hal), s.hostWrite_reserved ha hal w⟩,
    fun s a w ha hal hres => ⟨State.hostRead_of_readData ?_, ?_⟩, fun s a w ha => ?_, fun s a ha => ?_⟩
  · rw [s.readData_word_regs ha hal, regAt_eq_none hres]
    rfl
  · rw [s.hostWrite_word_regs ha hal, regAt_eq_none hres]
    rfl
  · obtain ⟨r, hr, hro⟩ : ∃ r, regAt a = some r ∧ r ∉ writableRegs := by
      revert a
      decide
    rw [s.hostWrite_reg hr, s.writeReg_readOnly w hro]
  · have hr : regAt a = some .ctrl ∨ regAt a = some .cmd ∨ regAt a = some .evtPop := by
      revert a
      decide
    obtain hr | hr | hr := hr <;> exact s.hostRead_reg hr

/-- Settles O44: an access of a buffer is the memory operation at its address, and its lanes are bytes of the word. -/
theorem byteLanesAgree : Obligations.ByteLanesAgree := by
  unfold Obligations.ByteLanesAgree
  intro s a k hal hk
  refine ⟨fun hlo hhi => ?_, fun hlo hhi hp w => ?_⟩
  · rw [State.hostRead_of_readData (s.readData_byte_buffer (a := a + k) (by omega) (by omega)),
      State.hostRead_of_readData (s.readData_word_buffer hal hlo hhi)]
    exact ⟨rfl, (s.mem.wordAt_lane a hk).symm⟩
  · rw [State.hostWrite_word_ibuf hp hal hlo hhi w, State.hostWrite_byte_ibuf hp (a := a + k) (by omega) (by omega) w]
    refine ⟨?_, ?_, fun b hb => s.mem.byteAt_setBytes_outside a b _ hb, fun b hb => ?_, rfl, rfl⟩
    · rw [Memory.byteAt_setBytes_inside _ _ _ _ (by simpa using hk), lanes_getElem w hk]
    · rw [Memory.byteAt_setByte, if_pos rfl]
      rfl
    · rw [Memory.byteAt_setByte, if_neg hb]

end Sys2Proof.Machine
end

section
/-! SUPPORT. The reserved bits of a command word as one mask per opcode, and the two ways decode can end (30_encoding.md R101-R104). -/

namespace Sys2Proof

/-- The 16 opcodes (30_encoding.md R103). -/
def opcodes : List (BitVec 8) :=
  [0x00#8, 0x01#8, 0x10#8, 0x11#8, 0x12#8, 0x13#8, 0x20#8, 0x21#8, 0x22#8, 0x30#8, 0x31#8, 0x32#8, 0x33#8, 0x34#8, 0x35#8, 0x36#8]

/-- The reserved bits of the words of one opcode: F for CMD-L, what the selects leave for CLR and TW_INIT, F and LEN for CMD-R
(30_encoding.md R101, R105). -/
def reservedBits (opc : BitVec 8) : Word :=
  if opc = 0x10#8 ∨ opc = 0x11#8 ∨ opc = 0x12#8 ∨ opc = 0x13#8 then 0x0000FF00#32
  else if opc = 0x01#8 then 0xFFFFF000#32
  else if opc = 0x30#8 then 0xFFFFFE00#32
  else 0xFFFFFF00#32

/-- Masking a word by a run of ones tests the field under it. -/
theorem and_ones_eq_zero_iff (w : Word) (lo n : Nat) (h : lo + n ≤ 32) :
    w &&& ((BitVec.allOnes n).setWidth 32 <<< lo) = 0#32 ↔ w.extractLsb' lo n = 0#n := by
  simp only [BitVec.eq_of_getLsbD_eq_iff, BitVec.getLsbD_and, BitVec.getLsbD_shiftLeft, BitVec.getLsbD_setWidth, BitVec.getLsbD_allOnes,
    BitVec.getLsbD_extractLsb', BitVec.getLsbD_zero]
  constructor
  · intro hmask j hj
    simpa [hj, show lo + j < 32 by omega, show j < 32 by omega] using hmask (lo + j) (by omega)
  · intro hfield i hi
    obtain hlt | hge | ⟨hlo, hhi⟩ : i < lo ∨ n ≤ i - lo ∨ lo ≤ i ∧ i - lo < n := by omega
    · simp [hlt]
    · simp [hge]
    · have hbit : w.getLsbD i = false := by simpa [hhi, show lo + (i - lo) = i by omega] using hfield (i - lo) hhi
      simp [hbit]

/-- A CMD-L command by the mask of its reserved bits. -/
theorem decodeL_eq_mask (w : Word) (mk : Nat → Instr) :
    decodeL w mk = if w &&& 0x0000FF00#32 = 0#32 then .ok (mk (lenField w).toNat) else .error .rsvd := by
  have hmask : w &&& 0x0000FF00#32 = 0#32 ↔ flagField w = 0#8 := and_ones_eq_zero_iff w 8 8 (by decide)
  simp only [decodeL_eq, hmask]

/-- A CMD-R command by the mask of its reserved bits. -/
theorem decodeR_eq_mask (w : Word) (i : Instr) :
    decodeR w i = if w &&& 0xFFFFFF00#32 = 0#32 then .ok i else .error .rsvd := by
  have hmask : w &&& 0xFFFFFF00#32 = 0#32 ↔ w.extractLsb' 8 24 = 0#24 := and_ones_eq_zero_iff w 8 24 (by decide)
  have hfields : flagField w = 0#8 ∧ lenField w = 0#16 ↔ w.extractLsb' 8 24 = 0#24 := by
    simp only [flagField, lenField, BitVec.toNat_eq, BitVec.extractLsb'_toNat, Nat.shiftRight_eq_div_pow, BitVec.toNat_ofNat]
    omega
  simp only [decodeR_eq, hfields, hmask]

/-- CLR by the mask of its reserved bits. -/
theorem decodeClr_eq_mask (w : Word) :
    decodeClr w =
      if w &&& 0xFFFFF000#32 = 0#32 then .ok (.clr (w.getLsbD 8) (w.getLsbD 9) (w.getLsbD 10) (w.getLsbD 11)) else .error .rsvd := by
  have hmask : w &&& 0xFFFFF000#32 = 0#32 ↔ w.extractLsb' 12 20 = 0#20 := and_ones_eq_zero_iff w 12 20 (by decide)
  simp only [decodeClr_eq, hmask]

/-- TW_INIT by the mask of its reserved bits. -/
theorem decodeTwInit_eq_mask (w : Word) :
    decodeTwInit w = if w &&& 0xFFFFFE00#32 = 0#32 then .ok (.twInit (w.getLsbD 8)) else .error .rsvd := by
  have hmask : w &&& 0xFFFFFE00#32 = 0#32 ↔ w.extractLsb' 9 23 = 0#23 := and_ones_eq_zero_iff w 9 23 (by decide)
  simp only [decodeTwInit_eq, hmask]

/-- Decode in the order of R102: an opcode outside the 16 is BAD_OPC; each of the 16 has one command, refused as RSVD when a reserved
bit is 1. -/
theorem decode_badOpc_or_masked (w : Word) :
    (opcField w ∉ opcodes ∧ decode w = .error .badOpc) ∨
    (opcField w ∈ opcodes ∧ ∃ i : Instr, i.opcode = opcField w ∧
      decode w = if w &&& reservedBits (opcField w) = 0#32 then .ok i else .error .rsvd) := by
  unfold decode
  split
  case h_3 h | h_4 h | h_5 h | h_6 h => rw [h]; exact .inr ⟨by decide, _, rfl, decodeL_eq_mask w _⟩
  case h_2 h => rw [h]; exact .inr ⟨by decide, _, rfl, decodeClr_eq_mask w⟩
  case h_10 h => rw [h]; exact .inr ⟨by decide, _, rfl, decodeTwInit_eq_mask w⟩
  case h_17 => exact .inl ⟨by simp_all [opcodes], rfl⟩
  all_goals next h => rw [h]; exact .inr ⟨by decide, _, rfl, decodeR_eq_mask w _⟩

end Sys2Proof
end

section
/-! SUPPORT. What running a command word does, by what the word decodes to (30_encoding.md R102), and the LEN limits (R104). -/

namespace Sys2Proof.Machine

theorem runWord_of_decode_ok {w : Word} {i : Instr} (h : decode w = .ok i) (s : State) : runWord w s = exec i s := by
  simp only [runWord, h]

theorem runWord_of_decode_error {w : Word} {e : DecodeError} (h : decode w = .error e) (s : State) :
    runWord w s = .next (s.failedWith (errOfDecode e).bits) := by
  simp only [runWord, h, failed_eq]

theorem exec_encFrame_badLen {len : Nat} (h : 1015 < len) (s : State) : exec (.encFrame len) s = .next (s.failedWith 3#4) := if_pos h

theorem exec_decFrame_badLen {len : Nat} (h : 1024 < len) (s : State) : exec (.decFrame len) s = .next (s.failedWith 3#4) := if_pos h

theorem exec_encSeg_badLen {len : Nat} (h : 1003 < len) (s : State) : exec (.encSeg len) s = .next (s.failedWith 3#4) := if_pos h

theorem exec_decSeg_badLen {len : Nat} (h : 1024 < len) (s : State) : exec (.decSeg len) s = .next (s.failedWith 3#4) := if_pos h

/-- The three clauses of R102 for a word. -/
theorem runWord_badOpc_or_rsvd_or_exec (w : Word) (s : State) :
    (opcField w ∉ opcodes → runWord w s = .next (s.failedWith 1#4)) ∧
    (opcField w ∈ opcodes → w &&& reservedBits (opcField w) ≠ 0#32 → runWord w s = .next (s.failedWith 2#4)) ∧
    (opcField w ∈ opcodes → w &&& reservedBits (opcField w) = 0#32 →
      ∃ i, decode w = .ok i ∧ i.opcode = opcField w ∧ runWord w s = exec i s) := by
  obtain ⟨hout, hdec⟩ | ⟨hin, i, hopc, hdec⟩ := decode_badOpc_or_masked w
  · exact ⟨fun _ => runWord_of_decode_error hdec s, fun hin => absurd hin hout, fun hin => absurd hin hout⟩
  · refine ⟨fun hout => absurd hin hout, fun _ hset => ?_, fun _ hclear => ?_⟩
    · rw [if_neg hset] at hdec
      exact runWord_of_decode_error hdec s
    · rw [if_pos hclear] at hdec
      exact ⟨i, hdec, hopc, runWord_of_decode_ok hdec s⟩

/-- Settles O4: the clauses of R102 for the word, and the LEN limit of each codec command. -/
theorem wordChecksInOrder : Obligations.WordChecksInOrder := by
  unfold Obligations.WordChecksInOrder
  intro w s
  obtain ⟨hbadOpc, hrsvd, hexec⟩ := runWord_badOpc_or_rsvd_or_exec w s
  exact ⟨hbadOpc, hrsvd, hexec, fun _ h => exec_encFrame_badLen h s, fun _ h => exec_decFrame_badLen h s,
    fun _ h => exec_encSeg_badLen h s, fun _ h => exec_decSeg_badLen h s⟩

end Sys2Proof.Machine
end

section
/-! SUPPORT. The codec commands (40_codec.md R146, R150, R154, R158): the word of each, its outcome as a function of the bytes it reads,
and what it leaves in OBUF. -/

namespace Sys2Proof.Machine

/-! ### The words (30_encoding.md R101) -/

theorem decodesL_of_decode {opc : BitVec 8} {mk : Nat → Instr} (h : ∀ w, opcField w = opc → decode w = decodeL w mk) :
    DecodesL opc mk := fun w hw => (h w hw).trans (decodeL_eq w mk)

theorem decodesL_encFrame : DecodesL 0x10#8 .encFrame := decodesL_of_decode fun w h => by simp only [decode, h]

theorem decodesL_decFrame : DecodesL 0x11#8 .decFrame := decodesL_of_decode fun w h => by simp only [decode, h]

theorem decodesL_encSeg : DecodesL 0x12#8 .encSeg := decodesL_of_decode fun w h => by simp only [decode, h]

theorem decodesL_decSeg : DecodesL 0x13#8 .decSeg := decodesL_of_decode fun w h => by simp only [decode, h]

/-! ### A success that writes OBUF -/

/-- The output, its frame and the answer of a command that succeeds over a state whose memory has `bs` in OBUF. -/
theorem exists_next_of_setBytes {i : Instr} {s t : State} {r : Results} {bs : List Byte} {n : Nat} (h : exec i s = done r t)
    (hmem : t.mem = s.mem.setBytes obufBase bs) (hn : bs.length = n) :
    ∃ u : State, exec i s = .next u ∧
      (List.range n).map (fun i => u.mem.byteAt (0x800 + i)) = bs ∧
      (∀ a, a < 0x800 ∨ 0x800 + n ≤ a → u.mem.byteAt a = s.mem.byteAt a) ∧
      { u with mem := s.mem } = ({ t with mem := s.mem } : State).answered r.r0 r.r1 r.r2 r.r3 r.r4 r.r5 := by
  subst hn
  refine ⟨t.succeed r, h, ?_, fun a ha => ?_, rfl⟩
  · rw [State.succeed_mem, hmem]; exact s.mem.bytes_setBytes obufBase bs
  · rw [State.succeed_mem, hmem]; exact s.mem.byteAt_setBytes_outside obufBase a bs ha

/-! ### The encoders -/

/-- The digest ENC_FRAME computes (R141). -/
def State.encFrameDigest (s : State) (len : Nat) : Word := digestFn (frameCover s.argType s.argSeq (s.ibuf len))

theorem exec_encFrame_eq {len : Nat} (h : len ≤ 1015) (s : State) :
    exec (.encFrame len) s =
      done (res2 (BitVec.ofNat 32 (9 + len)) (s.encFrameDigest len))
        (s.putObuf (frameBytes s.argType s.argSeq (s.encFrameDigest len) (s.ibuf len))) :=
  if_neg (by omega)

/-- The 17 header bytes ENC_SEG writes, from its operands and with a reserved field of 0 (30_encoding.md R112). -/
def State.argSegHead (s : State) : List Byte :=
  segHead s.argSrcPort s.argDstPort s.argSeq s.argAck s.argFlags s.argWindow 0#16

/-- The digest ENC_SEG computes (R142). -/
def State.encSegDigest (s : State) (len : Nat) : Word := digestFn (s.argSegHead ++ s.ibuf len)

theorem exec_encSeg_eq {len : Nat} (h : len ≤ 1003) (s : State) :
    exec (.encSeg len) s =
      done (res2 (BitVec.ofNat 32 (21 + len)) (s.encSegDigest len))
        (s.putObuf (s.argSegHead ++ be32 (s.encSegDigest len) ++ s.ibuf len)) :=
  if_neg (by omega)

@[simp] theorem frameBytes_length (t : Byte) (q d : Word) (p : List Byte) : (frameBytes t q d p).length = 9 + p.length := by
  rw [frameBytes, frameHead, List.length_append, List.length_append, List.length_cons, be32_length, be32_length]

@[simp] theorem segHead_length (sp dp : Half) (q a : Word) (fl : Byte) (w rv : Half) : (segHead sp dp q a fl w rv).length = 17 := rfl

@[simp] theorem State.argSegHead_length (s : State) : s.argSegHead.length = 17 := segHead_length ..

@[simp] theorem State.ibuf_length (s : State) (n : Nat) : (s.ibuf n).length = n := s.mem.bytes_length ibufBase n

/-- Settles O10: the digest covers what stands before it and the payload, and the frame is all that ENC_FRAME writes. -/
theorem encFrameWritesFrame : Obligations.EncFrameWritesFrame := by
  refine ⟨decodesL_encFrame, fun s _ h => exec_encFrame_badLen h s, fun s len h => ?_⟩
  have hlen : (frameBytes s.argType s.argSeq (s.encFrameDigest len) (s.ibuf len)).length = 9 + len := by
    rw [frameBytes_length, State.ibuf_length]
  exact exists_next_of_setBytes (exec_encFrame_eq h s) (State.putObuf_mem s _) hlen

/-- Settles O12: the digest covers the header bytes and the payload, and the segment is all that ENC_SEG writes. -/
theorem encSegWritesSegment : Obligations.EncSegWritesSegment := by
  refine ⟨decodesL_encSeg, fun s _ h => exec_encSeg_badLen h s, fun s len h => ?_⟩
  intro p h17 d
  have hpay : s.ibuf len = p := rfl
  have hhead : s.argSegHead = h17 := rfl
  have hdig : s.encSegDigest len = d := rfl
  have hlen : (s.argSegHead ++ be32 (s.encSegDigest len) ++ s.ibuf len).length = 21 + len := by
    rw [List.length_append, List.length_append, State.argSegHead_length, be32_length, State.ibuf_length]
  have hu := exists_next_of_setBytes (exec_encSeg_eq h s) (State.putObuf_mem s _) hlen
  simpa only [State.putObuf, res2, hhead, hdig, hpay] using hu

/-! ### The decoders, as functions of the datagram -/

/-- The latch DEC_FRAME fills from a datagram (R150). -/
def parsedFrame (b : List Byte) : Latch where
  fmt := .frame
  ok := rdBe32 b 5 == digestFn (b.take 5 ++ b.drop 9)
  type := byteOf b 0
  seq := rdBe32 b 1
  ack := 0#32
  flags := 0#8
  window := 0#16
  reserved := 0#16
  payload := b.drop 9

/-- RES0 to RES5 of DEC_FRAME for a datagram (R150). -/
def frameResults (b : List Byte) : Results where
  r0 := verdict (parsedFrame b).ok
  r1 := (byteOf b 0).setWidth 32
  r2 := rdBe32 b 1
  r3 := BitVec.ofNat 32 (b.length - 9)
  r4 := rdBe32 b 5
  r5 := digestFn (b.take 5 ++ b.drop 9)

/-- The latch DEC_SEG fills from a datagram (R158). -/
def parsedSeg (b : List Byte) : Latch where
  fmt := .seg
  ok := rdBe32 b 17 == digestFn (b.take 17 ++ b.drop 21)
  type := 0#8
  seq := rdBe32 b 4
  ack := rdBe32 b 8
  flags := byteOf b 12
  window := rdBe16 b 13
  reserved := rdBe16 b 15
  payload := b.drop 21

/-- RES0 to RES5 of DEC_SEG for a datagram (R158). -/
def segResults (b : List Byte) : Results where
  r0 := verdict (parsedSeg b).ok
  r1 := rdBe16 b 2 ++ rdBe16 b 0
  r2 := rdBe32 b 4
  r3 := rdBe32 b 8
  r4 := (rdBe16 b 13 ++ byteOf b 12).setWidth 32
  r5 := rdBe16 b 15 ++ BitVec.ofNat 16 (b.length - 21)

theorem exec_decFrame_short {len : Nat} (h : len < 9) (s : State) :
    exec (.decFrame len) s = done (res1 2#32) { s with latch := none } :=
  (if_neg (by omega)).trans (if_pos h)

theorem exec_decSeg_short {len : Nat} (h : len < 21) (s : State) :
    exec (.decSeg len) s = done (res1 2#32) { s with latch := none } :=
  (if_neg (by omega)).trans (if_pos h)

theorem exec_decFrame_parses {len : Nat} (hlo : 9 ≤ len) (hhi : len ≤ 1024) (s : State) :
    exec (.decFrame len) s =
      done (frameResults (s.ibuf len)) { s.putObuf ((s.ibuf len).drop 9) with latch := some (parsedFrame (s.ibuf len)) } := by
  rw [frameResults, State.ibuf_length]
  exact (if_neg (Nat.not_lt.mpr hhi)).trans (if_neg (Nat.not_lt.mpr hlo))

theorem exec_decSeg_parses {len : Nat} (hlo : 21 ≤ len) (hhi : len ≤ 1024) (s : State) :
    exec (.decSeg len) s =
      done (segResults (s.ibuf len)) { s.putObuf ((s.ibuf len).drop 21) with latch := some (parsedSeg (s.ibuf len)) } := by
  rw [segResults, State.ibuf_length]
  exact (if_neg (Nat.not_lt.mpr hhi)).trans (if_neg (Nat.not_lt.mpr hlo))

/-! ### The fields, byte by byte -/

theorem rdBe16_bytes (m : Memory) (a n i : Nat) (h : i + 1 < n) :
    rdBe16 (m.bytes a n) i = m.byteAt (a + i) ++ m.byteAt (a + (i + 1)) := by
  rw [rdBe16, byteOf_bytes _ _ _ _ (by omega), byteOf_bytes _ _ _ _ h]

theorem rdBe32_bytes (m : Memory) (a n i : Nat) (h : i + 3 < n) :
    rdBe32 (m.bytes a n) i =
      m.byteAt (a + i) ++ (m.byteAt (a + (i + 1)) ++ (m.byteAt (a + (i + 2)) ++ m.byteAt (a + (i + 3)))) := by
  rw [rdBe32, byteOf_bytes _ _ _ _ (by omega), byteOf_bytes _ _ _ _ (by omega), byteOf_bytes _ _ _ _ (by omega),
    byteOf_bytes _ _ _ _ h]

theorem verdict_decide (x y : Word) : verdict (decide (x = y)) = if x = y then 0#32 else 1#32 := by
  simp [verdict]

/-- Settles O11: each field DEC_FRAME reports is the one at its place in the datagram. -/
theorem decFrameParsesDatagram : Obligations.DecFrameParsesDatagram := by
  refine ⟨decodesL_decFrame, fun s _ h => exec_decFrame_badLen h s, fun s _ h => exec_decFrame_short h s, fun s len hlo hhi => ?_⟩
  intro b p q rdg cdg
  have hpay : (s.ibuf len).drop 9 = p := s.mem.bytes_drop ibufBase len 9
  have htype : byteOf (s.ibuf len) 0 = b 0 := byteOf_bytes _ _ _ _ (by omega)
  have hseq : rdBe32 (s.ibuf len) 1 = q := rdBe32_bytes _ _ _ _ (by omega)
  have hrdg : rdBe32 (s.ibuf len) 5 = rdg := rdBe32_bytes _ _ _ _ (by omega)
  have hcdg : digestFn ((s.ibuf len).take 5 ++ p) = cdg :=
    congrArg (fun h => digestFn (h ++ p)) (s.mem.bytes_take ibufBase len 5 (by omega))
  have hu := exists_next_of_setBytes (exec_decFrame_parses hlo hhi s) rfl (n := len - 9) (by simp)
  simpa only [State.putObuf, frameResults, parsedFrame, hpay, htype, hseq, hrdg, hcdg, verdict_decide, beq_eq_decide,
    State.ibuf_length] using hu

/-- Settles O13: each field DEC_SEG reports is the one at its place in the datagram, the reserved field included. -/
theorem decSegParsesDatagram : Obligations.DecSegParsesDatagram := by
  refine ⟨decodesL_decSeg, fun s _ h => exec_decSeg_badLen h s, fun s _ h => exec_decSeg_short h s, fun s len hlo hhi => ?_⟩
  intro b be16At be32At p cdg
  have hpay : (s.ibuf len).drop 21 = p := s.mem.bytes_drop ibufBase len 21
  have hflags : byteOf (s.ibuf len) 12 = b 12 := byteOf_bytes _ _ _ _ (by omega)
  have h16 : ∀ i, i + 1 < 21 → rdBe16 (s.ibuf len) i = be16At i := fun i hi => rdBe16_bytes _ _ _ _ (by omega)
  have h32 : ∀ i, i + 3 < 21 → rdBe32 (s.ibuf len) i = be32At i := fun i hi => rdBe32_bytes _ _ _ _ (by omega)
  have hcdg : digestFn ((s.ibuf len).take 17 ++ p) = cdg :=
    congrArg (fun h => digestFn (h ++ p)) (s.mem.bytes_take ibufBase len 17 (by omega))
  have hlen : (BitVec.ofNat 16 (len - 21)).setWidth 32 = BitVec.ofNat 32 (len - 21) := ofNat16_setWidth _ (by omega)
  have hu := exists_next_of_setBytes (exec_decSeg_parses hlo hhi s) rfl (n := len - 21) (by simp)
  simpa only [State.putObuf, segResults, parsedSeg, hpay, hflags, h16, h32, hcdg, verdict_decide, beq_eq_decide,
    State.ibuf_length, half_append,
    half_byte_append, hlen, Nat.reduceAdd, Nat.reduceLT] using hu

/-! ### A decode reads IBUF[0 .. LEN) alone (R152) -/

/-- What the command answers over a state, with the `n` bytes it writes to OBUF, is fixed by IBUF[0 .. len) of that state. -/
def AnswersFromIbuf (i : Instr) (len n : Nat) : Prop :=
  ∀ s : State, ∃ (r : Results) (l : Option Latch) (p : List Byte), p.length = n ∧
    ∀ u : State, u.ibuf len = s.ibuf len → exec i u = done r { u.putObuf p with latch := l }

theorem decFrame_answersFromIbuf {len : Nat} (h : len ≤ 1024) : AnswersFromIbuf (.decFrame len) len (len - 9) := by
  intro s
  by_cases hs : len < 9
  · exact ⟨res1 2#32, none, [], by rw [List.length_nil]; omega, fun u _ => exec_decFrame_short hs u⟩
  · refine ⟨frameResults (s.ibuf len), some (parsedFrame (s.ibuf len)), (s.ibuf len).drop 9, by simp, fun u hu => ?_⟩
    rw [exec_decFrame_parses (by omega) h u, hu]

theorem decSeg_answersFromIbuf {len : Nat} (h : len ≤ 1024) : AnswersFromIbuf (.decSeg len) len (len - 21) := by
  intro s
  by_cases hs : len < 21
  · exact ⟨res1 2#32, none, [], by rw [List.length_nil]; omega, fun u _ => exec_decSeg_short hs u⟩
  · refine ⟨segResults (s.ibuf len), some (parsedSeg (s.ibuf len)), (s.ibuf len).drop 21, by simp, fun u hu => ?_⟩
    rw [exec_decSeg_parses (by omega) h u, hu]

/-- Two memories with the same bytes written read the same there. -/
theorem Memory.byteAt_setBytes_congr (m k : Memory) {a b : Nat} {bs : List Byte} (hlo : a ≤ b) (hhi : b < a + bs.length) :
    (m.setBytes a bs).byteAt b = (k.setBytes a bs).byteAt b := by
  obtain ⟨i, rfl⟩ := Nat.exists_eq_add_of_le hlo
  rw [m.byteAt_setBytes_inside a i bs (by omega), k.byteAt_setBytes_inside a i bs (by omega)]

/-- Settles O16: the datagram fixes the results, the latch and the bytes written, and both states have the same datagram. -/
theorem decodeReadsOnlyItsBytes : Obligations.DecodeReadsOnlyItsBytes := by
  intro s u len i hi hlen hagree
  have hdec : AnswersFromIbuf i len (outputLength i s) := by
    rcases hi with rfl | rfl
    · exact decFrame_answersFromIbuf hlen
    · exact decSeg_answersFromIbuf hlen
  have hibuf : u.ibuf len = s.ibuf len := (s.mem.bytes_congr u.mem ibufBase len hagree).symm
  obtain ⟨r, l, p, hp, hexec⟩ := hdec s
  refine ⟨_, _, hexec s rfl, hexec u hibuf, rfl, rfl, rfl, rfl, fun a hlo hhi => ?_⟩
  exact s.mem.byteAt_setBytes_congr u.mem hlo (hp ▸ hhi)

end Sys2Proof.Machine
end

section
/-! SUPPORT. The reorder buffer's commands over one state: the words and outcomes of RB_SETEXP and DLV_POP, which actions of RB_PUSH carry an
ACK, and the SR receive rule over an RB that keeps its invariant (41_reorder.md R186-R192, R200-R204). -/

namespace Sys2Proof.Machine

/-! ### The words (30_encoding.md R101) -/

theorem decodesR_of_decode {opc : BitVec 8} {i : Instr} (h : ∀ w, opcField w = opc → decode w = decodeR w i) : DecodesR opc i :=
  fun w hw => (h w hw).trans (decodeR_eq w i)

theorem decodesR_rbSetexp : DecodesR 0x21#8 .rbSetexp := decodesR_of_decode fun w h => by simp only [decode, h]

theorem decodesR_dlvPop : DecodesR 0x22#8 .dlvPop := decodesR_of_decode fun w h => by simp only [decode, h]

/-! ### RB_SETEXP (R200) -/

theorem exec_rbSetexp_off {s : State} (hm : s.rb.mode = .off) : exec .rbSetexp s = .next (s.failedWith 4#4) := if_pos hm

theorem exec_rbSetexp_eq {s : State} (hm : s.rb.mode ≠ .off) :
    exec .rbSetexp s = done (res1 (BitVec.ofNat 32 s.rb.occupied)) { s with rb := s.rb.setExp s.argWord } := if_neg hm

theorem Reorder.occupied_eq (rb : Reorder) : rb.occupied = rb.units.length := countP_isSome rb.slots

theorem Reorder.setExp_eq (e : Word) (rb : Reorder) :
    rb.setExp e = { rb with exp := e, slots := List.replicate rb.slots.length none } := by
  rw [Reorder.setExp, map_none]

/-- Settles O25: RB_SETEXP writes RB alone, and frees slot by slot. -/
theorem rbSetexpFreesSlots : Obligations.RbSetexpFreesSlots := by
  refine ⟨decodesR_rbSetexp, fun s => ⟨exec_rbSetexp_off, fun hm => ?_⟩⟩
  rw [exec_rbSetexp_eq hm, Reorder.occupied_eq, Reorder.setExp_eq]
  rfl

/-! ### DLV_POP (R202) -/

theorem exec_dlvPop_nil {s : State} (h : s.dlv = []) : exec .dlvPop s = .next (s.failedWith 8#4) := by
  rw [exec, execDlvPop, h]; rfl

theorem exec_dlvPop_cons {s : State} {e : DlvEntry} {r : List DlvEntry} (h : s.dlv = e :: r) :
    exec .dlvPop s =
      done (res3 (BitVec.ofNat 32 e.payload.length) e.seq (BitVec.ofNat 32 r.length)) (({ s with dlv := r } : State).putObuf e.payload) := by
  rw [exec, execDlvPop, h]

/-- Settles O26: the bytes DLV_POP writes are the head's payload. -/
theorem dlvPopMovesHeadToObuf : Obligations.DlvPopMovesHeadToObuf :=
  ⟨decodesR_dlvPop, fun _ h => exec_dlvPop_nil h, fun _ _ _ h => exists_next_of_setBytes (exec_dlvPop_cons h) rfl rfl⟩

/-! ### Which actions carry an ACK (R204) -/

/-- The actions that carry no ACK in a mode, by name. -/
def Action.silent (m : Mode) : Action → Bool
  | .outOfWindow | .notData | .oversize => true
  | .corrupt => decide (m ≠ .gbn)
  | .noSlot => decide (m = .sr)
  | .delivered | .buffered | .duplicate | .discarded => false

/-- The same, by the codes of R181. -/
theorem Action.silent_iff (m : Mode) (a : Action) :
    a.silent m = true ↔
      a.bits = 3#32 ∨ a.bits = 5#32 ∨ a.bits = 6#32 ∨ (a.bits = 4#32 ∧ m ≠ .gbn) ∨ (a.bits = 7#32 ∧ m = .sr) := by
  cases a <;> simp [Action.silent, Action.bits]

theorem gbnRule_ack (isData : Bool) (rb : Reorder) (l : Latch) :
    (gbnRule isData rb l).ack.isNone = (gbnRule isData rb l).act.silent .gbn := by
  unfold gbnRule
  dsimp only
  split_ifs <;> rfl

/-- Buffering carries an ACK, and NO_SLOT carries the one it is given. -/
theorem Reorder.buffer_ack (rb : Reorder) (l : Latch) (a : Word) (k : Option Word) (m : Mode)
    (hk : k.isNone = Action.noSlot.silent m) :
    (rb.buffer l (some a) k).ack.isNone = (rb.buffer l (some a) k).act.silent m := by
  unfold Reorder.buffer
  split
  · rfl
  · exact hk

theorem srRule_ack (isData : Bool) (rb : Reorder) (l : Latch) :
    (srRule isData rb l).ack.isNone = (srRule isData rb l).act.silent .sr := by
  unfold srRule
  dsimp only
  split_ifs with hok hdata hin hlen he hheld hbehind
  · rfl
  · rfl
  · rfl
  · rfl
  · rfl
  · exact rb.buffer_ack l _ _ .sr rfl
  · rfl
  · rfl

theorem connRule_ack (rb : Reorder) (l : Latch) : (connRule rb l).ack.isNone = (connRule rb l).act.silent .conn := by
  unfold connRule
  dsimp only
  split_ifs with hok hempty hlen he hah hheld
  · rfl
  · rfl
  · rfl
  · rfl
  · rfl
  · exact rb.buffer_ack l _ _ .conn rfl
  · rfl

/-- In every mode a verdict has no ACK exactly where its action carries none. -/
theorem modeRule_ack (isData : Bool) (rb : Reorder) (l : Latch) :
    (modeRule isData rb l).ack.isNone = (modeRule isData rb l).act.silent rb.mode := by
  unfold modeRule
  split
  · next hm => rw [hm, gbnRule_ack]
  · next hm => rw [hm, srRule_ack]
  · next hm => rw [hm, connRule_ack]
  · rfl

/-- RES1 and RES2 of a verdict that carries no ACK, and RES1 of one that carries an ACK. -/
theorem Verdict.results_ack (v : Verdict) :
    (v.ack.isNone = true → v.results.r1 = 0#32 ∧ v.results.r2 = 0#32) ∧ (¬v.ack.isNone = true → v.results.r1 = 1#32) := by
  cases h : v.ack <;> simp [Verdict.results, h]

/-- A successful RB_PUSH reports the verdict of the mode's rule. -/
theorem exec_rbPush_res {s t : State} (h : exec .rbPush s = .next t) (he : t.err = false) :
    ∃ l, s.latch = some l ∧ t.res = (modeRule (l.type == Config.typeData) s.rb l).results := by
  obtain ⟨c, rfl⟩ | ⟨l, hl, -, -, -, rfl⟩ := execRbPush_cases s t h
  · simp at he
  · exact ⟨l, hl, rfl⟩

/-- Settles O24: RES1 and RES2 come from the verdict's ACK, and the verdict has none exactly where its action is silent. -/
theorem acksOnlyWhereTheRuleSays : Obligations.AcksOnlyWhereTheRuleSays := by
  intro s t h he
  obtain ⟨l, -, hres⟩ := exec_rbPush_res h he
  dsimp only
  rw [hres, Verdict.results, ← Action.silent_iff, ← modeRule_ack]
  exact Verdict.results_ack _

/-! ### The SR receive rule over an RB that keeps its invariant (R186-R192) -/

/-- In SR the valid slots have distinct distances from RB_EXP, each from 1 to N - 1. -/
theorem RbInv.units_length_le_of_sr {rb : Reorder} (hrb : RbInv rb) (hm : rb.mode = .sr) : rb.units.length ≤ rb.n.toNat - 1 := by
  have hdist : Function.Injective fun x : Word => (dist rb.exp x).toNat := fun x y h => by
    rw [eq_add_dist_toNat rb.exp x, eq_add_dist_toNat rb.exp y]
    exact congrArg (fun i => rb.exp + BitVec.ofNat 32 i) h
  have hnodup := hrb.unitsDistinct.map hdist
  have hsub : (rb.units.map (·.seq)).map (fun x => (dist rb.exp x).toNat) ⊆ List.range' 1 (rb.n.toNat - 1) := by
    simp only [List.subset_def, List.mem_map, List.mem_range'_1]
    rintro _ ⟨_, ⟨r, hr, rfl⟩, rfl⟩
    have := hrb.srWindow hm r hr
    omega
  simpa using (List.subperm_of_subset hnodup hsub).length_le

/-- With a free slot an arrival is buffered. -/
theorem Reorder.buffer_act_of_free {rb : Reorder} (h : rb.units.length < rb.slots.length) (l : Latch) (k k' : Option Word) :
    (rb.buffer l k k').act = .buffered := by
  obtain ⟨j, hj⟩ := firstFree_isSome rb.slots h
  rw [Reorder.buffer, hj]

theorem srRule_act_ne_noSlot {rb : Reorder} (h : rb.units.length < rb.slots.length) (isData : Bool) (l : Latch) :
    (srRule isData rb l).act ≠ .noSlot := by
  unfold srRule
  dsimp only
  split_ifs with hok hdata hin hlen he hheld hbehind
  · nofun
  · nofun
  · nofun
  · nofun
  · nofun
  · rw [Reorder.buffer_act_of_free h]; nofun
  · nofun
  · nofun

theorem Action.bits_eq_seven {a : Action} (h : a.bits = 7#32) : a = .noSlot := by
  revert h; cases a <;> decide

/-- Settles O21: at most N - 1 of the 32 slots are valid, so the rule finds a free one wherever it buffers. -/
theorem srNeverRunsOutOfSlots : Obligations.SrNeverRunsOutOfSlots := by
  intro s t hrb hm h
  have hle := hrb.units_length_le_of_sr hm
  refine ⟨hle, fun he hseven => ?_⟩
  obtain ⟨l, -, hres⟩ := exec_rbPush_res h he
  rw [hres, modeRule, hm] at hseven
  have hfree : s.rb.units.length < s.rb.slots.length := by
    have hcount : s.rb.slots.length = 32 := hrb.slotCount
    have hN : s.rb.n.toNat ≤ 32 := hrb.nLegal.2
    have hpos := hrb.nLegal.1
    omega
  exact srRule_act_ne_noSlot hfree _ l (Action.bits_eq_seven hseven)

/-- The buffered frames that an in-order arrival releases, and the sequence after the last of them. -/
def Reorder.srReleased (rb : Reorder) : List DlvEntry × Word := srDrain rb.slots rb.slots.length (rb.exp + 1#32)

theorem Reorder.srReleased_end (rb : Reorder) : rb.srReleased.2 = rb.exp + BitVec.ofNat 32 (rb.srReleased.1.length + 1) := by
  obtain ⟨hend, -, -, -⟩ := srDrain_spec rb.slots rb.slots.length (rb.exp + 1#32)
  rw [Reorder.srReleased, hend]; bv_omega

theorem Reorder.srReleased_getElem? (rb : Reorder) {k : Nat} {e : DlvEntry} (h : rb.srReleased.1[k]? = some e) :
    e.seq = rb.exp + BitVec.ofNat 32 (k + 1) ∧ ({ seq := e.seq, payload := e.payload } : RbSlot) ∈ rb.units := by
  obtain ⟨-, hent, -, -⟩ := srDrain_spec rb.slots rb.slots.length (rb.exp + 1#32)
  obtain ⟨hseq, hheld⟩ := hent k e h
  exact ⟨by rw [hseq]; bv_omega, hheld⟩

theorem Reorder.srReleased_length_le (rb : Reorder) : rb.srReleased.1.length ≤ rb.slots.length := by
  obtain ⟨-, -, hle, -⟩ := srDrain_spec rb.slots rb.slots.length (rb.exp + 1#32)
  exact hle

/-- No slot holds the sequence after the released ones: a slot left lies ahead of it, and a slot released lies before it. -/
theorem RbInv.seq_ne_srReleased_end {rb : Reorder} (hrb : RbInv rb) (hm : rb.mode = .sr) {r : RbSlot} (hr : r ∈ rb.units) :
    r.seq ≠ rb.srReleased.2 := by
  intro he
  by_cases hin : r.seq ∈ seqsOf rb.srReleased.1
  · obtain ⟨e, hmem, hseq⟩ := List.mem_map.mp hin
    obtain ⟨k, hk⟩ := List.mem_iff_getElem?.mp hmem
    obtain ⟨hklt, -⟩ := List.getElem?_eq_some_iff.mp hk
    have hle := rb.srReleased_length_le
    rw [hrb.slotCount, Config.robSlots] at hle
    have hek := (rb.srReleased_getElem? hk).1
    rw [hseq, he, rb.srReleased_end] at hek
    bv_omega
  · have hpos := (srDrain_leaves_inWindow hrb hm r hr hin).1
    rw [he, Reorder.srReleased, dist_self] at hpos
    exact absurd hpos (by decide)

/-- An in-order arrival of a data frame that fits delivers it with the frames it releases. -/
theorem srRule_inOrder {rb : Reorder} {l : Latch} (hn : 0 < rb.n.toNat) (hok : l.ok = true) (hseq : l.seq = rb.exp)
    (hlen : l.payload.length ≤ Config.maxPayload) :
    srRule true rb l =
      { act := .delivered, ack := some l.seq, deliver := { seq := l.seq, payload := l.payload } :: rb.srReleased.1,
        rb := { rb with
          exp := rb.srReleased.2, slots := freeWhere (fun r => (seqsOf rb.srReleased.1).contains r.seq) rb.slots } } := by
  have hin : inwin rb.exp rb.exp rb.n.toNat = true := by simpa [inwin] using hn
  unfold srRule
  dsimp only
  rw [hseq, hok, hin, if_neg (by decide), if_neg (by decide), if_pos rfl, if_neg (by omega), if_pos rfl]
  rfl

/-- Freeing the slots of one more sequence changes nothing where no slot holds it. -/
theorem freeWhere_contains_cons {slots : List (Option RbSlot)} {x : Word} (h : ∀ r ∈ slots.reduceOption, r.seq ≠ x) (xs : List Word) :
    freeWhere (fun r => (x :: xs).contains r.seq) slots = freeWhere (fun r => xs.contains r.seq) slots := by
  refine List.map_congr_left fun o ho => ?_
  cases o with
  | none => rfl
  | some r =>
    have hne := h r ((mem_units slots r).mpr ho)
    simp [Option.filter_some, hne]

/-- RB_PUSH of a latch of the mode's format commits the verdict of the mode's rule. -/
theorem exec_rbPush_eq {s : State} {l : Latch} (hm : s.rb.mode ≠ .off) (hl : s.latch = some l) (hf : fmtFits s.rb.mode l.fmt = true) :
    exec .rbPush s = pushVerdict (modeRule (l.type == Config.typeData) s.rb l) s := by
  rw [exec, execRbPush, if_neg hm, hl]
  exact if_pos hf

/-- Settles O20: the entries after the first are the released ones, and no slot holds the arriving frame's own sequence. -/
theorem srInOrderArrivalDrains : Obligations.SrInOrderArrivalDrains := by
  intro s l hrb hm hl hfmt hok htype hseq hlen
  have hrule := srRule_inOrder hrb.nLegal.1 hok hseq hlen
  have hexec : exec .rbPush s = pushVerdict (srRule true s.rb l) s := by
    rw [exec_rbPush_eq (by simp [hm]) hl (by rw [hm, hfmt]; rfl), modeRule, hm, htype, beq_self_eq_true]
  have hfirst : ∀ r ∈ s.rb.units, r.seq ≠ l.seq := fun r hr he => by
    have hpos := (hrb.srWindow hm r hr).1
    simp [he, hseq] at hpos
  refine ⟨(srRule true s.rb l).deliver, (srRule true s.rb l).rb, fun h => by rw [hexec, pushVerdict_full _ _ h],
    fun h => by rw [hexec, pushVerdict_fits _ _ h, hrule]; rfl, ?_⟩
  rw [hrule]
  refine ⟨rfl, fun k e he => ?_, fun k e he => (s.rb.srReleased_getElem? he).2, fun r hr => ?_, rfl, rfl, s.rb.srReleased_end,
    (freeWhere_contains_cons hfirst _).symm⟩
  · cases k with
    | zero => cases he; simpa using hseq
    | succ k => exact (s.rb.srReleased_getElem? he).1
  · rw [List.length_cons, ← s.rb.srReleased_end]
    exact hrb.seq_ne_srReleased_end hm hr

end Sys2Proof.Machine
end

section
/-! SUPPORT. The transmit-window and timer commands over one state, the slide of the SR base, one RTT sample and one expiry service
(42_txwindow_timers.md R220-R257): the word of each command, and what each computes, case by case. -/

namespace Sys2Proof.Machine

/-! ### The slide (R54, R230, R231) -/

theorem TxWindow.acked_iff (tw : TxWindow) (x : Word) :
    tw.acked x = true ↔ (dist tw.base x).toNat < (dist tw.base tw.next).toNat ∧ ∀ t ∈ tw.units, t.seq ≠ x := by
  rw [TxWindow.acked, Bool.and_eq_true, decide_eq_true_eq, Bool.not_eq_true', ← Bool.not_eq_true, TxWindow.hasSlot_iff]
  exact and_congr Iff.rfl (by simp)

theorem TxWindow.seqAt_dist (tw : TxWindow) (x : Word) : tw.seqAt (dist tw.base x).toNat = x := (eq_add_dist_toNat tw.base x).symm

theorem TxWindow.dist_seqAt {tw : TxWindow} {i : Nat} (hi : i < tw.outstanding.toNat) : (dist tw.base (tw.seqAt i)).toNat = i :=
  dist_add_left tw.base i (hi.trans tw.outstanding.isLt)

/-- The last number of a range that passes a test is the largest that does. -/
theorem getLast?_filter_range {p : Nat → Bool} {n d : Nat} (hd : d < n) (hp : p d = true) (hmax : ∀ i < n, p i = true → i ≤ d) :
    ((List.range n).filter p).getLast? = some d := by
  have hmem : d ∈ (List.range n).filter p := List.mem_filter.mpr ⟨List.mem_range.mpr hd, hp⟩
  have hle := (List.pairwise_le_range.filter p).rel_getLast hmem
  obtain ⟨hlast, hpl⟩ := List.mem_filter.mp (List.getLast_mem (List.ne_nil_of_mem hmem))
  rw [List.getLast?_eq_some_getLast (List.ne_nil_of_mem hmem), (hmax _ (List.mem_range.mp hlast) hpl).antisymm hle]

theorem TxWindow.slide_skip_of_none_acked {tw : TxWindow} (h : ∀ x, tw.acked x = false) : tw.slide .skip = tw := by
  simp [TxWindow.slide, TxWindow.slideSkip, h]

theorem TxWindow.slide_skip_of_furthest {tw : TxWindow} {x : Word} (hx : tw.acked x = true)
    (hmax : ∀ y, tw.acked y = true → (dist tw.base y).toNat ≤ (dist tw.base x).toNat) :
    tw.slide .skip = { tw with base := x + 1#32 } := by
  have hlast : (tw.window.filter fun i => tw.acked (tw.seqAt i)).getLast? = some (dist tw.base x).toNat :=
    getLast?_filter_range (tw.acked_dist x hx) (by rwa [tw.seqAt_dist]) fun i hi ha => TxWindow.dist_seqAt hi ▸ hmax _ ha
  have hbase : tw.seqAt ((dist tw.base x).toNat + 1) = x + 1#32 := by
    rw [TxWindow.seqAt, BitVec.ofNat_add, ← BitVec.add_assoc, ← eq_add_dist_toNat]
  simp only [TxWindow.slide, TxWindow.slideSkip, hlast, hbase]

/-- `takeWhile` on a range stops at the range's end or at the first number that fails the test. -/
theorem takeWhile_range_spec (p : Nat → Bool) (n : Nat) :
    (∀ i < ((List.range n).takeWhile p).length, p i = true) ∧
      (((List.range n).takeWhile p).length = n ∨ p ((List.range n).takeWhile p).length = false) := by
  have hle : (List.range n).findIdx (fun a => !p a) ≤ n := by simpa using List.findIdx_le_length (xs := List.range n)
  rw [List.takeWhile_eq_take_findIdx_not, List.length_take, List.length_range, Nat.min_eq_left hle]
  refine ⟨fun i hi => by simpa using List.not_of_lt_findIdx hi, hle.eq_or_lt.imp_right fun hlt => ?_⟩
  simpa using List.findIdx_getElem (w := hlt.trans_eq List.length_range.symm)

/-- Settles O33: SKIP takes the last of the acknowledged distances, CONTIGUOUS counts them from the base to the first gap. -/
theorem slideRules : Obligations.SlideRules := fun tw =>
  ⟨rfl, tw.acked_iff, TxWindow.slide_skip_of_none_acked, fun _ => TxWindow.slide_skip_of_furthest,
    _, tw.takeWhile_window_le _, rfl, takeWhile_range_spec _ _⟩

/-! ### The words (30_encoding.md R101) -/

theorem decodesR_twArm : DecodesR 0x33#8 .twArm := decodesR_of_decode fun w h => by simp only [decode, h]

theorem decodesR_twCancel : DecodesR 0x34#8 .twCancel := decodesR_of_decode fun w h => by simp only [decode, h]

theorem decodesR_twStop : DecodesR 0x35#8 .twStop := decodesR_of_decode fun w h => by simp only [decode, h]

theorem decodesR_rtoSample : DecodesR 0x36#8 .rtoSample := decodesR_of_decode fun w h => by simp only [decode, h]

theorem decode_twInit {w : Word} (h : opcField w = 0x30#8) : decode w = decodeTwInit w := by simp only [decode, h]

/-! ### One RTT sample (R243, R245)

The exact integers stay below 2^28, so the 32-bit registers lose nothing. -/

theorem Estimator.sample_sa_toNat (order : Config.RttvarOrder) (r : BitVec 24) {e : Estimator} (ha : e.sa.toNat < 2 ^ 27) :
    (e.sample order r).sa.toNat = e.sa.toNat + r.toNat - e.sa.toNat / 8 := by
  have hr := r.isLt
  simp only [Estimator.sample, BitVec.toNat_ofInt, Nat.shiftRight_eq_div_pow]
  omega

theorem Estimator.sample_sv_old (r : BitVec 24) {e : Estimator} (ha : e.sa.toNat < 2 ^ 27) (hv : e.sv.toNat < 2 ^ 26) :
    ((e.sample .old r).sv.toNat : Int) = e.sv.toNat + |(r.toNat : Int) - (e.sa.toNat / 8 : Nat)| - (e.sv.toNat / 4 : Nat) := by
  have hr := r.isLt
  simp only [Estimator.sample, BitVec.toNat_ofInt, Nat.shiftRight_eq_div_pow, Int.abs_eq_natAbs]
  omega

theorem Estimator.sample_sv_new (r : BitVec 24) {e : Estimator} (ha : e.sa.toNat < 2 ^ 27) (hv : e.sv.toNat < 2 ^ 26) :
    ((e.sample .new r).sv.toNat : Int) =
      e.sv.toNat + |(r.toNat : Int) - ((e.sample .new r).sa.toNat / 8 : Nat)| - (e.sv.toNat / 4 : Nat) := by
  have hr := r.isLt
  rw [Estimator.sample_sa_toNat .new r ha]
  simp only [Estimator.sample, BitVec.toNat_ofInt, Nat.shiftRight_eq_div_pow, Int.abs_eq_natAbs]
  omega

theorem Estimator.sample_rto_toNat (order : Config.RttvarOrder) (r : BitVec 24) (e : Estimator) :
    (e.sample order r).rto.toNat = max 200 (min 5000 ((e.sample order r).sa.toNat / 8 + (e.sample order r).sv.toNat)) := by
  simp only [Estimator.sample, clampRto_eq, BitVec.toNat_ofNat, Nat.shiftRight_eq_div_pow]
  omega

/-- Settles O36: the estimator is `Estimator.sample` in the build's order. -/
theorem rtoSampleUpdatesEstimator : Obligations.RtoSampleUpdatesEstimator := by
  refine ⟨decodesR_rtoSample, fun s ha hv => ⟨s.tw.est.sample Config.rttvarOrder s.argSample, rfl,
    Estimator.sample_sa_toNat _ _ ha, ?_, Estimator.sample_rto_toNat _ _ _⟩⟩
  cases Config.rttvarOrder with
  | old => exact Estimator.sample_sv_old _ ha hv
  | new => exact Estimator.sample_sv_new _ ha hv

/-! ### TW_INIT and TW_STOP (R220, R240) -/

theorem TxWindow.noSlots_eq (tw : TxWindow) : tw.noSlots = List.replicate tw.slots.length none := map_none tw.slots

/-- Settles O27: TW_INIT is `TxWindow.init`, which frees slot by slot. -/
theorem twInitResetsWindow : Obligations.TwInitResetsWindow := by
  refine ⟨fun w h => (decode_twInit h).trans (decodeTwInit_eq w), fun s r => ?_⟩
  rw [← TxWindow.noSlots_eq]
  rfl

/-- Settles O35: the timers cancelled are the shared one, if armed, and the valid slots. -/
theorem twStopCancelsEveryTimer : Obligations.TwStopCancelsEveryTimer := by
  refine ⟨decodesR_twStop, fun s => ?_⟩
  rw [← TxWindow.noSlots_eq, ← TxWindow.liveSlots_eq]
  rfl

/-! ### TW_ADMIT into a full window, and in GBN (R222, R223) -/

theorem exec_twAdmit_full {s : State} (hm : s.tw.windowed) (hst : s.tw.stopped = false) (hab : s.tw.abort = false)
    (hn : s.tw.cfg.n.toNat ≤ s.tw.outstanding.toNat) : exec .twAdmit s = .next (s.failedWith 5#4) := by
  have hmode : ¬ (s.tw.cfg.mode ≠ .gbn ∧ s.tw.cfg.mode ≠ .sr) := fun h => hm.elim h.1 h.2
  simp only [exec, execTwAdmit, if_neg hmode, hst, hab, if_pos hn]
  rfl

theorem exec_twAdmit_gbn {s : State} (hm : s.tw.cfg.mode = .gbn) (hst : s.tw.stopped = false) (hab : s.tw.abort = false)
    (hn : s.tw.outstanding.toNat < s.tw.cfg.n.toNat) : exec .twAdmit s = .next (admitted 0 s.tw.admitGbn s) := by
  simp [exec, execTwAdmit, hm, hst, hab, Nat.not_le.mpr hn]

/-- Settles O29: the window is empty exactly when its two ends meet. -/
theorem gbnAdmission : Obligations.GbnAdmission := by
  refine fun s hm hst hab => ⟨exec_twAdmit_full (.inl hm) hst hab, fun hn => ?_⟩
  rw [exec_twAdmit_gbn hm hst hab hn]
  simp only [← dist_eq_zero s.tw.base s.tw.next]
  rfl

/-! ### TW_ARM and TW_CANCEL (R236, R238) -/

theorem exec_twArm_mode {s : State} (hm : s.tw.cfg.mode ≠ .conn) : exec .twArm s = .next (s.failedWith 4#4) := if_pos hm

theorem exec_twCancel_mode {s : State} (hm : s.tw.cfg.mode ≠ .conn) : exec .twCancel s = .next (s.failedWith 4#4) := if_pos hm

theorem exec_twArm_stopped {s : State} (hm : s.tw.cfg.mode = .conn) (hst : s.tw.stopped = true) :
    exec .twArm s = .next (s.failedWith 10#4) := by
  simp only [exec, execTwArm, hm, hst]
  rfl

theorem exec_twArm_conn {s : State} (hm : s.tw.cfg.mode = .conn) (hst : s.tw.stopped = false) :
    exec .twArm s = done (res1 s.tw.est.rto) { s with tw := { s.tw with
      ptag := s.argWord, retry := 0#8, shared := SharedTimer.armedWith (s.tw.est.rto.setWidth 24) } } := by
  simp [exec, execTwArm, hm, hst]

theorem exec_twCancel_conn {s : State} (hm : s.tw.cfg.mode = .conn) :
    exec .twCancel s = done (res1 (BitVec.ofNat 32 (bitNat s.tw.shared.armed)))
      { s with tw := { s.tw with shared := SharedTimer.off } } := if_neg (not_not_intro hm)

/-- Settles O34. TW_CANCEL has no check of `stopped`, so it answers in both cases alike. -/
theorem twArmAndTwCancel : Obligations.TwArmAndTwCancel := by
  refine ⟨decodesR_twArm, decodesR_twCancel, fun s hm => ⟨exec_twArm_mode hm, exec_twCancel_mode hm⟩,
    fun s => exec_twArm_stopped, fun s => exec_twArm_conn, fun s hm => ?_⟩
  rw [exec_twCancel_conn hm]
  cases s.tw.shared.armed <;> rfl

/-! ### The expiry services (R252-R257) -/

theorem TxWindow.serveSlot_retx (g : Bool) (rule : Config.SrSlide) (j : Nat) {t : TimerSlot} {tw : TxWindow}
    (h : t.retries.toNat < tw.cfg.maxRetries.toNat) : tw.serveSlot g rule j t =
      ({ tw with
          slots := tw.slots.set j (some { seq := t.seq, rem := tw.timeout, retries := t.retries + 1#8 }),
          retxCnt := tw.retxCnt + 1#32 },
        { kind := .retx, seq := t.seq, count := 1#16 }) := if_neg (Nat.not_le.mpr h)

/-- SR slot j given up: freed and counted, before any slide (R252, R257). -/
def TxWindow.giveUp (j : Nat) (tw : TxWindow) : TxWindow := { tw with slots := tw.slots.set j none, giveupCnt := tw.giveupCnt + 1#32 }

theorem TxWindow.serveSlot_giveup (g : Bool) (rule : Config.SrSlide) (j : Nat) {t : TimerSlot} {tw : TxWindow}
    (h : tw.cfg.maxRetries.toNat ≤ t.retries.toNat) : tw.serveSlot g rule j t =
      (if g = true ∧ t.seq = tw.base ∧ tw.base ≠ tw.next then (tw.giveUp j).slide rule else tw.giveUp j,
        { kind := .giveup, seq := t.seq, count := 1#16 }) := by
  rw [ite_and]
  exact if_pos h

theorem TxWindow.serveGbn_retx {tw : TxWindow} (h : tw.retry.toNat < tw.cfg.maxRetries.toNat) : tw.serveGbn =
    ({ tw with
        retry := tw.retry + 1#8, shared := { armed := tw.shared.armed, rem := tw.timeout },
        retxCnt := tw.retxCnt + dist tw.base tw.next },
      { kind := .retxRange, seq := tw.base, count := (dist tw.base tw.next).setWidth 16 }) := if_neg (Nat.not_le.mpr h)

theorem TxWindow.serveGbn_abort {tw : TxWindow} (h : tw.cfg.maxRetries.toNat ≤ tw.retry.toNat) : tw.serveGbn =
    ({ tw with abort := true, shared := { armed := false, rem := 0#24 } },
      { kind := .abort, seq := tw.base, count := (dist tw.base tw.next).setWidth 16 }) := if_pos h

theorem TxWindow.serveConn_retx {tw : TxWindow} (h : tw.cfg.connLimit = false ∨ tw.retry.toNat < tw.cfg.maxRetries.toNat) :
    tw.serveConn =
      ({ tw with
          retry := satInc tw.retry, shared := { armed := tw.shared.armed, rem := tw.est.rto.setWidth 24 },
          retxCnt := tw.retxCnt + 1#32 },
        { kind := .retx, seq := tw.ptag, count := 1#16 }) := by
  have hopen : ¬ (tw.cfg.connLimit = true ∧ tw.cfg.maxRetries.toNat ≤ tw.retry.toNat) := fun hc =>
    h.elim (ne_false_of_eq_true hc.1) (Nat.not_lt.mpr hc.2)
  exact if_neg hopen

theorem TxWindow.serveConn_exhaust {tw : TxWindow} (hl : tw.cfg.connLimit = true) (h : tw.cfg.maxRetries.toNat ≤ tw.retry.toNat) :
    tw.serveConn =
      ({ tw with shared := { armed := false, rem := 0#24 } }, { kind := .pexhaust, seq := tw.ptag, count := 1#16 }) := if_pos ⟨hl, h⟩

/-- Settles O40, from the two sides of each mode's ceiling. -/
theorem expiryServices : Obligations.ExpiryServices :=
  ⟨fun g rule _ j _ => ⟨TxWindow.serveSlot_retx g rule j, TxWindow.serveSlot_giveup g rule j⟩,
    fun tw => ⟨TxWindow.serveGbn_retx, TxWindow.serveGbn_abort,
      fun h => ⟨satInc tw.retry, satInc_toNat tw.retry, TxWindow.serveConn_retx h⟩, TxWindow.serveConn_exhaust⟩⟩

end Sys2Proof.Machine
end

section
/-! SUPPORT. The control commands NOP and CLR (43_control.md R280, R281): the word of each, and its outcome in every state. -/

namespace Sys2Proof.Machine

/-! ### The words (30_encoding.md R101, R105) -/

theorem decodesR_nop : DecodesR 0x00#8 .nop := decodesR_of_decode fun w h => by simp only [decode, h]

theorem decode_clr {w : Word} (h : opcField w = 0x01#8) : decode w = decodeClr w := by simp only [decode, h]

/-! ### The outcomes -/

theorem exec_nop_eq (s : State) : exec .nop s = .next (s.answered 0#32 0#32 0#32 0#32 0#32 0#32) := done_eq resZero s

theorem exec_clr_eq (s : State) (l d e c : Bool) :
    exec (.clr l d e c) s = .next ((s.clear l d e c).answered 0#32 0#32 0#32 0#32 0#32 0#32) := done_eq resZero (s.clear l d e c)

/-- The one select over two registers, as a select of each of them. -/
theorem State.clear_eq (s : State) (l d e c : Bool) :
    s.clear l d e c = { s with
      latch := if l then none else s.latch,
      dlv := if d then [] else s.dlv,
      evt := if e then [] else s.evt,
      tw := { s.tw with
        giveupCnt := if c then 0#32 else s.tw.giveupCnt, retxCnt := if c then 0#32 else s.tw.retxCnt } } := by
  cases c <;> rfl

/-- Settles O8: NOP is a CMD-R command that ends in success over the state it began from. -/
theorem nopWritesZeroResults : Obligations.NopWritesZeroResults := ⟨decodesR_nop, exec_nop_eq⟩

/-- Settles O9: the reserved bits are one field above the selects, and CLR ends in success over the cleared state. -/
theorem clrClearsSelected : Obligations.ClrClearsSelected := by
  refine ⟨fun w hopc => (decode_clr hopc).trans (decodeClr_eq w), fun s l d e c => ?_⟩
  rw [exec_clr_eq, State.clear_eq]

end Sys2Proof.Machine
end

section
/-! SUPPORT. STATUS bit by bit (10_state.md R27) and the irq output read through it (60_exceptions.md R310). -/

namespace Sys2Proof.Machine

/-! ### The source conditions -/

theorem State.evtNe_eq (s : State) : s.evtNe = decide (s.evt ≠ []) := by cases h : s.evt <;> simp [State.evtNe, h]

theorem State.dlvNe_eq (s : State) : s.dlvNe = decide (s.dlv ≠ []) := by cases h : s.dlv <;> simp [State.dlvNe, h]

theorem State.irq_iff (s : State) :
    s.irq = true ↔
      (s.irqEn.getLsbD 0 = true ∧ s.evtNe = true) ∨ (s.irqEn.getLsbD 1 = true ∧ s.dlvNe = true) ∨
      (s.irqEn.getLsbD 2 = true ∧ s.tw.abort = true) ∨ (s.irqEn.getLsbD 3 = true ∧ s.err = true) ∨
      (s.irqEn.getLsbD 4 = true ∧ (s.cmdOvr = true ∨ s.accErr = true)) := by
  simp only [State.irq, Bool.or_eq_true, Bool.and_eq_true, or_assoc]

/-! ### The bits of STATUS (R27) -/

/-- The flag at each place of STATUS, false where R27 names none. -/
def State.statusFlag (s : State) : Nat → Bool
  | 0 => s.busy
  | 1 => s.err
  | 8 => s.tw.abort
  | 9 => s.evtNe
  | 10 => s.dlvNe
  | 11 => s.latchV
  | 12 => s.tw.stopped
  | 13 => s.cmdOvr
  | 14 => s.evtFull
  | 15 => s.dlvFull
  | 16 => s.accErr
  | _ => false

/-- The table as the disjunction that STATUS is built from: at most one place is i. -/
theorem State.statusFlag_eq_or (s : State) (i : Nat) :
    s.statusFlag i =
      (s.busy && decide (i = 0) || s.err && decide (i = 1) || s.tw.abort && decide (i = 8) || s.evtNe && decide (i = 9) ||
        s.dlvNe && decide (i = 10) || s.latchV && decide (i = 11) || s.tw.stopped && decide (i = 12) ||
        s.cmdOvr && decide (i = 13) || s.evtFull && decide (i = 14) || s.dlvFull && decide (i = 15) ||
        s.accErr && decide (i = 16)) := by
  unfold State.statusFlag
  split <;> simp_all

theorem State.statusFlag_of_ge (s : State) {i : Nat} (h : 17 ≤ i) : s.statusFlag i = false := by
  obtain ⟨n, rfl⟩ := Nat.exists_eq_add_of_le' h
  rfl

/-- STATUS bit by bit: a flag, or a bit of ERRCODE, which stands from bit 4 on. -/
theorem State.status_getLsbD (s : State) (i : Nat) (hi : i < 32) :
    s.status.getLsbD i = (s.statusFlag i || !decide (i < 4) && s.errcode.getLsbD (i - 4)) := by
  have h4 : i - 4 < 32 := by omega
  rw [s.statusFlag_eq_or]
  simp only [State.status, BitVec.getLsbD_or, BitVec.getLsbD_shiftLeft, BitVec.getLsbD_setWidth, bitAt_getLsbD _ _ _ hi, hi, h4,
    decide_true, Bool.true_and]
  ac_rfl

/-- ERRCODE fills bits 4 to 7, so every other bit is its flag. -/
theorem State.status_getLsbD_flag (s : State) (i : Nat) (h : (i < 4 ∨ 8 ≤ i) ∧ i < 32) :
    s.status.getLsbD i = s.statusFlag i := by
  obtain ⟨hout, hi⟩ := h
  have hcode : (!decide (i < 4) && s.errcode.getLsbD (i - 4)) = false := by
    obtain hlow | hhigh := hout
    · simp [hlow]
    · rw [BitVec.getLsbD_of_ge s.errcode (i - 4) (by omega), Bool.and_false]
  rw [s.status_getLsbD i hi, hcode, Bool.or_false]

/-- No flag stands at bits 4 to 7. -/
theorem State.status_errcode (s : State) : s.status.extractLsb' 4 4 = s.errcode := by
  apply BitVec.eq_of_getLsbD_eq
  intro j hj
  have hflag : s.statusFlag (4 + j) = false := by
    match j, hj with
    | 0, _ | 1, _ | 2, _ | 3, _ => rfl
  rw [BitVec.getLsbD_extractLsb', s.status_getLsbD _ (by omega), hflag]
  simp [hj]

theorem State.status_reserved (s : State) (i : Nat) (h : 17 ≤ i) : s.status.getLsbD i = false := by
  obtain hi | hi := Nat.lt_or_ge i 32
  · rw [s.status_getLsbD_flag i ⟨.inr (by omega), hi⟩, s.statusFlag_of_ge h]
  · exact BitVec.getLsbD_of_ge _ _ hi

/-- Settles O47: each bit is its flag, ERRCODE is its field, and irq is over the source conditions that STATUS shows. -/
theorem statusBitsAndIrq : Obligations.StatusBitsAndIrq := by
  intro s
  have hbit := s.status_getLsbD_flag
  have h9 : s.status.getLsbD 9 = s.evtNe := hbit 9 (by decide)
  have h10 : s.status.getLsbD 10 = s.dlvNe := hbit 10 (by decide)
  refine ⟨hbit 0 (by decide), hbit 1 (by decide), hbit 2 (by decide), hbit 3 (by decide), s.status_errcode, hbit 8 (by decide),
    h9.trans s.evtNe_eq, h10.trans s.dlvNe_eq, hbit 11 (by decide), hbit 12 (by decide), hbit 13 (by decide), hbit 14 (by decide),
    hbit 15 (by decide), hbit 16 (by decide), s.status_reserved, ?_⟩
  rw [hbit 1 (by decide), hbit 8 (by decide), h9, h10, hbit 13 (by decide), hbit 16 (by decide)]
  exact s.irq_iff

end Sys2Proof.Machine
end

section
/-! SUPPORT. What each command does where it succeeds, said once for all of them as a relation, so that the frames and the invariants are
case splits over it (30_encoding.md R103). -/

namespace Sys2Proof.Machine

/-- What a transmit-window command that succeeds leaves in TW (42_txwindow_timers.md R220-R243). -/
inductive TwEffect (s : State) : Instr → TxWindow → Prop where
  | init (r : Bool) : TwEffect s (.twInit r) (s.tw.init s.argWord r)
  | admitGbn (hm : s.tw.cfg.mode = .gbn) (hst : s.tw.stopped = false) (hab : s.tw.abort = false)
      (hroom : s.tw.outstanding.toNat < s.tw.cfg.n.toNat) : TwEffect s .twAdmit s.tw.admitGbn
  | admitSr (j : Nat) (hm : s.tw.cfg.mode = .sr) (hst : s.tw.stopped = false) (hroom : s.tw.outstanding.toNat < s.tw.cfg.n.toNat)
      (hj : firstFree s.tw.slots = some j) (hspan : (s.tw.admitSr j).overSpan = false) : TwEffect s .twAdmit (s.tw.admitSr j)
  | ackGbn (hm : s.tw.cfg.mode = .gbn) (hst : s.tw.stopped = false) (hab : s.tw.abort = false) :
      TwEffect s .twAck (s.tw.gbnAck s.argWord).2
  | ackSr (hm : s.tw.cfg.mode = .sr) (hst : s.tw.stopped = false) : TwEffect s .twAck (s.tw.srAck Config.srSlide s.argWord).2
  | arm (hm : s.tw.cfg.mode = .conn) (hst : s.tw.stopped = false) :
      TwEffect s .twArm { s.tw with ptag := s.argWord, retry := 0#8, shared := SharedTimer.armedWith (s.tw.est.rto.setWidth 24) }
  | cancel (hm : s.tw.cfg.mode = .conn) : TwEffect s .twCancel { s.tw with shared := SharedTimer.off }
  | stop : TwEffect s .twStop { s.tw with shared := SharedTimer.off, slots := s.tw.noSlots, stopped := true }
  | sample : TwEffect s .rtoSample { s.tw with est := s.tw.est.sample Config.rttvarOrder s.argSample }

/-- What a command that succeeds does to the state, but for the results it then writes. -/
inductive CommandEffect (s : State) : Instr → State → Prop where
  | nop : CommandEffect s .nop s
  | clr (l d e c : Bool) : CommandEffect s (.clr l d e c) (s.clear l d e c)
  | encFrame (len : Nat) (bs : List Byte) (hlen : len ≤ 1015) (hbs : bs.length = 9 + len) :
      CommandEffect s (.encFrame len) (s.putObuf bs)
  | encSeg (len : Nat) (bs : List Byte) (hlen : len ≤ 1003) (hbs : bs.length = 21 + len) :
      CommandEffect s (.encSeg len) (s.putObuf bs)
  | decFrameShort (len : Nat) : CommandEffect s (.decFrame len) { s with latch := none }
  | decFrame (len : Nat) (l : Latch) (hlo : 9 ≤ len) (hhi : len ≤ 1024) (hfmt : l.fmt = .frame) (hp : l.payload.length = len - 9) :
      CommandEffect s (.decFrame len) { s.putObuf l.payload with latch := some l }
  | decSegShort (len : Nat) : CommandEffect s (.decSeg len) { s with latch := none }
  | decSeg (len : Nat) (l : Latch) (hlo : 21 ≤ len) (hhi : len ≤ 1024) (hfmt : l.fmt = .seg) (hp : l.payload.length = len - 21) :
      CommandEffect s (.decSeg len) { s.putObuf l.payload with latch := some l }
  | rbPush (v : Verdict) (l : Latch) (hl : s.latch = some l) (hv : v = modeRule (l.type == Config.typeData) s.rb l)
      (hroom : s.dlv.length + v.deliver.length ≤ Config.dlvDepth) :
      CommandEffect s .rbPush { s with dlv := s.dlv ++ v.deliver, rb := v.rb, latch := none }
  | rbSetexp : CommandEffect s .rbSetexp { s with rb := s.rb.setExp s.argWord }
  | dlvPop (e : DlvEntry) (q : List DlvEntry) (hd : s.dlv = e :: q) :
      CommandEffect s .dlvPop (({ s with dlv := q } : State).putObuf e.payload)
  | tw (i : Instr) (tw : TxWindow) (h : TwEffect s i tw) : CommandEffect s i { s with tw := tw }

/-- Everything a command can do: raise one error over the state it began from, or its effect and its results. -/
theorem exec_cases {i : Instr} {s t : State} (h : exec i s = .next t) :
    (∃ c : ErrCode, t = s.raise c) ∨ ∃ (u : State) (r : Results), CommandEffect s i u ∧ t = u.succeed r := by
  cases i with
  | nop => cases h; exact .inr ⟨_, _, .nop, rfl⟩
  | clr l d e c => cases h; exact .inr ⟨_, _, .clr l d e c, rfl⟩
  | encFrame len =>
    exact (execEncFrame_cases len s t h).imp_right fun ⟨r, bs, hlen, hbs, ht⟩ => ⟨_, r, .encFrame len bs hlen hbs, ht⟩
  | encSeg len =>
    exact (execEncSeg_cases len s t h).imp_right fun ⟨r, bs, hlen, hbs, ht⟩ => ⟨_, r, .encSeg len bs hlen hbs, ht⟩
  | decFrame len =>
    obtain hc | ⟨-, r, ht⟩ | ⟨r, l, p, hlo, hhi, hfmt, rfl, hp, ht⟩ := execDecFrame_cases len s t h
    · exact .inl hc
    · exact .inr ⟨_, r, .decFrameShort len, ht⟩
    · exact .inr ⟨_, r, .decFrame len l hlo hhi hfmt hp, ht⟩
  | decSeg len =>
    obtain hc | ⟨-, r, ht⟩ | ⟨r, l, p, hlo, hhi, hfmt, rfl, hp, ht⟩ := execDecSeg_cases len s t h
    · exact .inl hc
    · exact .inr ⟨_, r, .decSegShort len, ht⟩
    · exact .inr ⟨_, r, .decSeg len l hlo hhi hfmt hp, ht⟩
  | rbPush =>
    exact (execRbPush_cases s t h).imp_right fun ⟨l, hl, _, _, hroom, ht⟩ => ⟨_, _, .rbPush _ l hl rfl hroom, ht⟩
  | rbSetexp => exact (execRbSetexp_cases s t h).imp_right fun ⟨r, ht⟩ => ⟨_, r, .rbSetexp, ht⟩
  | dlvPop => exact (execDlvPop_cases s t h).imp_right fun ⟨e, q, r, hd, ht⟩ => ⟨_, r, .dlvPop e q hd, ht⟩
  | twInit r => cases h; exact .inr ⟨_, _, .tw _ _ (.init r), rfl⟩
  | twAdmit =>
    obtain hc | ⟨hst, hab, hroom, r, ⟨hm, ht⟩ | ⟨hm, j, hj, hspan, ht⟩⟩ := execTwAdmit_cases s t h
    · exact .inl hc
    · exact .inr ⟨_, r, .tw _ _ (.admitGbn hm hst hab hroom), ht⟩
    · exact .inr ⟨_, r, .tw _ _ (.admitSr j hm hst hroom hj hspan), ht⟩
  | twAck =>
    obtain hc | ⟨hst, hab, r, ⟨hm, ht⟩ | ⟨hm, ht⟩⟩ := execTwAck_cases s t h
    · exact .inl hc
    · exact .inr ⟨_, r, .tw _ _ (.ackGbn hm hst hab), ht⟩
    · exact .inr ⟨_, r, .tw _ _ (.ackSr hm hst), ht⟩
  | twArm => exact (execTwArm_cases s t h).imp_right fun ⟨hm, hst, r, ht⟩ => ⟨_, r, .tw _ _ (.arm hm hst), ht⟩
  | twCancel => exact (execTwCancel_cases s t h).imp_right fun ⟨hm, r, ht⟩ => ⟨_, r, .tw _ _ (.cancel hm), ht⟩
  | twStop => cases h; exact .inr ⟨_, _, .tw _ _ .stop, rfl⟩
  | rtoSample => cases h; exact .inr ⟨_, _, .tw _ _ .sample, rfl⟩

end Sys2Proof.Machine
end

section
/-! SUPPORT. The invariant of TW (10_state.md R55, 42_txwindow_timers.md R241, R244, R255, R259): what it asks of one live unit, and that every
operation on TW keeps it. -/

namespace Sys2Proof.Machine

/-! ### One live unit -/

/-- What the invariant of TW asks of one live unit. -/
structure TwUnitInv (tw : TxWindow) (t : TimerSlot) : Prop where
  inSr : tw.cfg.mode = .sr
  running : tw.stopped = false
  liveSpan : 0 < (dist t.seq tw.next).toNat ∧ (dist t.seq tw.next).toNat < 2 ^ 31
  slotRetries : t.retries.toNat ≤ tw.cfg.maxRetries.toNat

theorem TwInv.unit {tw : TxWindow} (htw : TwInv tw) {t : TimerSlot} (ht : t ∈ tw.units) : TwUnitInv tw t where
  inSr := by by_contra hm; simp [htw.slotUse hm] at ht
  running := by by_contra hst; simp [(htw.stoppedQuiet (by simpa using hst)).2] at ht
  liveSpan := htw.liveSpan t ht
  slotRetries := htw.slotRetries t ht

/-- Other slots keep the invariant where each unit in them meets it and no sequence is held twice. -/
theorem TwInv.withSlots {tw : TxWindow} (htw : TwInv tw) {slots : List (Option TimerSlot)} (hcount : slots.length = tw.slots.length)
    (hdistinct : (slots.reduceOption.map (·.seq)).Nodup) (hunits : ∀ t ∈ slots.reduceOption, TwUnitInv tw t) :
    TwInv { tw with slots := slots } :=
  { htw with
    slotCount := hcount.trans htw.slotCount
    slotUse := fun hm => List.eq_nil_iff_forall_not_mem.mpr fun t ht => hm (hunits t ht).inSr
    stoppedQuiet := fun hst => ⟨(htw.stoppedQuiet hst).1, List.eq_nil_iff_forall_not_mem.mpr fun t ht => by
      simp [(hunits t ht).running] at hst⟩
    unitsDistinct := hdistinct
    liveSpan := fun t ht => (hunits t ht).liveSpan
    slotRetries := fun t ht => (hunits t ht).slotRetries }

/-- Freeing some units keeps the invariant. -/
theorem TwInv.withFewerUnits {tw : TxWindow} (htw : TwInv tw) {slots : List (Option TimerSlot)} (hcount : slots.length = tw.slots.length)
    (hsub : slots.reduceOption.Sublist tw.units) : TwInv { tw with slots := slots } :=
  htw.withSlots hcount (htw.unitsDistinct.sublist (hsub.map _)) fun _ ht => htw.unit (hsub.subset ht)

/-! ### The slide (42_txwindow_timers.md R229-R231) -/

/-- The base moved forward inside the window in SR keeps the invariant. -/
theorem TwInv.moveBase {tw : TxWindow} (htw : TwInv tw) (hm : tw.cfg.mode = .sr) {n : Nat} (hn : n ≤ tw.outstanding.toNat) :
    TwInv { tw with base := tw.base + BitVec.ofNat 32 n } :=
  { htw with
    windowBound := fun hw => by
      have hshrink := dist_base_add tw.base tw.next n hn
      have hbound := htw.windowBound hw
      unfold TxWindow.outstanding at *
      dsimp only
      omega
    gbnTimer := fun hg => by simp [hm] at hg }

theorem TwInv.slide {tw : TxWindow} (htw : TwInv tw) (hm : tw.cfg.mode = .sr) (rule : Config.SrSlide) : TwInv (tw.slide rule) := by
  obtain ⟨n, hn, he⟩ := tw.slide_eq rule
  exact he ▸ htw.moveBase hm hn

theorem TwInv.slideAt {tw : TxWindow} (htw : TwInv tw) (hm : tw.cfg.mode = .sr) (rule : Config.SrSlide) (k : Word) :
    TwInv (tw.slideAt rule k) := by
  obtain ⟨n, hn, he⟩ := tw.slideAt_eq rule k
  exact he ▸ htw.moveBase hm hn

/-! ### The count of the shared timer -/

/-- Another count in the shared timer keeps the invariant, unless the timer is disarmed and the count is not 0. -/
theorem TwInv.withCount {tw : TxWindow} (htw : TwInv tw) {r : BitVec 24} (hr : tw.shared.armed = false → r = 0#24) :
    TwInv { tw with shared := { tw.shared with rem := r } } :=
  { htw with disarmedRem := hr }

/-! ### TW with no unit (TW_INIT, a TW_CFG write, reset) -/

/-- With an empty window and nothing armed only the configuration and the estimator are left to hold. -/
theorem TwInv.of_empty {tw : TxWindow} (hcount : tw.slots.length = Config.timerSlots)
    (hn : 1 ≤ tw.cfg.n.toNat ∧ tw.cfg.n.toNat ≤ Config.winMax) (htimeout : tw.timeout ≠ 0#24) (hbase : tw.base = tw.next)
    (hshared : tw.shared = SharedTimer.off) (hunits : tw.units = []) (hretry : tw.retry = 0#8) (habort : tw.abort = false)
    (hrto : Config.rtoMin ≤ tw.est.rto.toNat ∧ tw.est.rto.toNat ≤ Config.rtoMax)
    (hest : tw.est.sa.toNat < 2 ^ 27 ∧ tw.est.sv.toNat < 2 ^ 26) : TwInv tw where
  slotCount := hcount
  nLegal := hn
  timeoutPos := htimeout
  windowBound := fun _ => by simp [TxWindow.outstanding, hbase]
  gbnTimer := fun _ => by simp [hshared, SharedTimer.off, hbase]
  sharedUse := fun _ => by rw [hshared]; rfl
  slotUse := fun _ => hunits
  disarmedRem := fun _ => by rw [hshared]; rfl
  stoppedQuiet := fun _ => ⟨by rw [hshared]; rfl, hunits⟩
  abortGbn := fun ha => by simp [habort] at ha
  unitsDistinct := by simp [hunits]
  liveSpan := by simp [hunits]
  slotRetries := by simp [hunits]
  gbnRetries := fun _ => by simp [hretry]
  rtoBound := hrto
  estBound := hest

theorem TxWindow.length_noSlots (tw : TxWindow) : tw.noSlots.length = tw.slots.length := by simp [TxWindow.noSlots]

theorem TxWindow.units_noSlots (tw : TxWindow) : tw.noSlots.reduceOption = [] := by
  rw [tw.noSlots_eq, units_replicate]

theorem Estimator.reset_bounds :
    (Config.rtoMin ≤ Estimator.reset.rto.toNat ∧ Estimator.reset.rto.toNat ≤ Config.rtoMax) ∧
      Estimator.reset.sa.toNat < 2 ^ 27 ∧ Estimator.reset.sv.toNat < 2 ^ 26 := by decide

theorem TwInv.init {tw : TxWindow} (htw : TwInv tw) (k : Word) (r : Bool) : TwInv (tw.init k r) := by
  refine .of_empty (tw.length_noSlots.trans htw.slotCount) htw.nLegal htw.timeoutPos rfl rfl tw.units_noSlots rfl rfl ?_ ?_
  · cases r with
    | false => exact htw.rtoBound
    | true => exact Estimator.reset_bounds.1
  · cases r with
    | false => exact htw.estBound
    | true => exact Estimator.reset_bounds.2

/-- A write of TW_CFG stores a legal N whatever it is given (10_state.md R32). -/
theorem TwInv.configure {tw : TxWindow} (htw : TwInv tw) (w : Word) : TwInv (tw.configure (TwCfg.ofWord w)) :=
  .of_empty (tw.length_noSlots.trans htw.slotCount)
    (by simp only [TxWindow.configure, TxWindow.init_cfg, TwCfg.ofWord, warlN_toNat, Config.winMax]; omega)
    htw.timeoutPos rfl rfl tw.units_noSlots rfl rfl Estimator.reset_bounds.1 Estimator.reset_bounds.2

theorem twInv_resetTxWindow : TwInv TxWindow.reset :=
  .of_empty rfl (by decide) (by decide) rfl rfl (units_replicate _) rfl rfl Estimator.reset_bounds.1 Estimator.reset_bounds.2

/-! ### Admission (42_txwindow_timers.md R222-R224) -/

theorem TwInv.admitGbn {tw : TxWindow} (htw : TwInv tw) (hm : tw.cfg.mode = .gbn) (hst : tw.stopped = false) (hab : tw.abort = false)
    (hroom : tw.outstanding.toNat < tw.cfg.n.toNat) : TwInv tw.admitGbn := by
  have hunits : tw.units = [] := htw.slotUse (by simp [hm])
  have hN : tw.cfg.n.toNat ≤ 32 := htw.nLegal.2
  have hgrow : tw.admitGbn.outstanding.toNat = tw.outstanding.toNat + 1 :=
    dist_succ_toNat tw.base tw.next (by unfold TxWindow.outstanding at hroom; omega)
  have hne : tw.base ≠ tw.next + 1#32 := fun he => by
    have hzero : tw.admitGbn.outstanding = 0#32 := (dist_eq_zero _ _).mpr he
    simp [hzero] at hgrow
  have harmed : tw.admitGbn.shared.armed = true := by
    rw [TxWindow.admitGbn_shared]
    split_ifs with hempty
    · rfl
    · exact (htw.gbnTimer hm).mpr ⟨mt (dist_eq_zero _ _).mpr hempty, hab, hst⟩
  exact { htw with
    windowBound := fun _ => by rw [hgrow]; exact hroom
    gbnTimer := fun _ => iff_of_true harmed ⟨hne, hab, hst⟩
    sharedUse := by simp [hm]
    disarmedRem := fun h => by rw [harmed] at h; cases h
    stoppedQuiet := fun h => by simp [hst] at h
    liveSpan := fun t ht => by rw [show tw.admitGbn.units = [] from hunits] at ht; cases ht }

theorem TxWindow.overSpan_eq_false_iff (tw : TxWindow) :
    tw.overSpan = false ↔ ∀ t ∈ tw.units, (dist t.seq tw.next).toNat < 2 ^ 31 := by
  simp only [TxWindow.overSpan, TxWindow.units, List.any_eq_false, mem_units]
  constructor
  · intro h t ht
    simpa using h (some t) ht
  · intro h o ho
    cases o with
    | none => simp
    | some t => simpa using h t ho

theorem TwInv.admitSr {tw : TxWindow} (htw : TwInv tw) {j : Nat} (hm : tw.cfg.mode = .sr) (hst : tw.stopped = false)
    (hroom : tw.outstanding.toNat < tw.cfg.n.toNat) (hj : firstFree tw.slots = some j) (hspan : (tw.admitSr j).overSpan = false) :
    TwInv (tw.admitSr j) := by
  have hN : tw.cfg.n.toNat ≤ 32 := htw.nLegal.2
  have hgrow : (tw.admitSr j).outstanding.toNat = tw.outstanding.toNat + 1 :=
    dist_succ_toNat tw.base tw.next (by unfold TxWindow.outstanding at hroom; omega)
  have hperm : (tw.admitSr j).units.Perm ({ seq := tw.next, rem := tw.timeout, retries := 0#8 } :: tw.units) :=
    units_set_some_perm tw.slots j _ ((firstFree_eq_some _ _).mp hj).1
  have hspan' := (TxWindow.overSpan_eq_false_iff _).mp hspan
  have hpos : ∀ t ∈ (tw.admitSr j).units, 0 < (dist t.seq (tw.next + 1#32)).toNat := fun t ht => by
    obtain rfl | hold := List.mem_cons.mp (hperm.mem_iff.mp ht)
    · rw [dist_succ]; simp
    · have := htw.liveSpan t hold
      rw [dist_succ]; bv_omega
  exact { htw with
    slotCount := by simpa using htw.slotCount
    windowBound := fun _ => by rw [hgrow]; exact hroom
    gbnTimer := fun h => by simp [hm] at h
    slotUse := fun h => absurd hm h
    stoppedQuiet := fun h => by simp [hst] at h
    unitsDistinct := by
      refine (hperm.map (·.seq)).nodup_iff.mpr (List.nodup_cons.mpr ⟨fun hin => ?_, htw.unitsDistinct⟩)
      obtain ⟨t, ht, he⟩ := List.mem_map.mp hin
      simpa [he] using (htw.liveSpan t ht).1
    liveSpan := fun t ht => ⟨hpos t ht, hspan' t ht⟩
    slotRetries := fun t ht => by
      obtain rfl | hold := List.mem_cons.mp (hperm.mem_iff.mp ht)
      · simp
      · exact htw.slotRetries t hold }

/-! ### Acknowledgment (42_txwindow_timers.md R226-R229) -/

theorem TwInv.gbnAck {tw : TxWindow} (htw : TwInv tw) (hm : tw.cfg.mode = .gbn) (hst : tw.stopped = false) (hab : tw.abort = false)
    (k : Word) : TwInv (tw.gbnAck k).2 := by
  unfold TxWindow.gbnAck
  split_ifs with hin hlast
  · exact { htw with
      windowBound := fun _ => by simp [TxWindow.outstanding, hlast]
      gbnTimer := fun _ => by simp [SharedTimer.off, hlast]
      sharedUse := fun _ => rfl
      disarmedRem := fun _ => rfl
      stoppedQuiet := fun h => by simp [hst] at h
      gbnRetries := fun _ => by simp }
  · have hshrink := dist_from_after tw.base tw.next k hin
    exact { htw with
      windowBound := fun hw => by
        have hbound := htw.windowBound hw
        unfold TxWindow.outstanding at *
        dsimp only
        omega
      gbnTimer := fun _ => by simp [SharedTimer.armedWith, hlast, hst, hab]
      sharedUse := by simp [hm]
      disarmedRem := fun h => by simp [SharedTimer.armedWith] at h
      stoppedQuiet := fun h => by simp [hst] at h
      gbnRetries := fun _ => by simp }
  · exact htw

theorem freeSeq_units {k : Word} {l : List (Option TimerSlot)} (h : (l.reduceOption.map (·.seq)).Nodup) :
    (freeSeq k l).reduceOption = l.reduceOption.filter fun t => t.seq != k := by
  rw [freeSeq_eq_map k l h, units_map_filter]

theorem TwInv.srAck {tw : TxWindow} (htw : TwInv tw) (hm : tw.cfg.mode = .sr) (rule : Config.SrSlide) (k : Word) :
    TwInv (tw.srAck rule k).2 := by
  have hfreed : TwInv { tw with slots := freeSeq k tw.slots } :=
    htw.withFewerUnits (by simp [freeSeq_eq_map k _ htw.unitsDistinct])
      (by rw [freeSeq_units htw.unitsDistinct]; exact List.filter_sublist)
  exact hfreed.slideAt hm rule k

/-! ### The shared timer of CONN, TW_STOP and the estimator (42_txwindow_timers.md R236-R245) -/

theorem TwInv.arm {tw : TxWindow} (htw : TwInv tw) (hm : tw.cfg.mode = .conn) (hst : tw.stopped = false) (tag : Word) (c : BitVec 24) :
    TwInv { tw with ptag := tag, retry := 0#8, shared := SharedTimer.armedWith c } :=
  { htw with
    gbnTimer := fun h => by simp [hm] at h
    sharedUse := by simp [hm]
    disarmedRem := fun h => by simp [SharedTimer.armedWith] at h
    stoppedQuiet := fun h => by simp [hst] at h
    gbnRetries := fun h => by simp [hm] at h }

theorem TwInv.disarm {tw : TxWindow} (htw : TwInv tw) (hm : tw.cfg.mode ≠ .gbn) : TwInv { tw with shared := SharedTimer.off } :=
  { htw with
    gbnTimer := fun h => absurd h hm
    sharedUse := fun _ => rfl
    disarmedRem := fun _ => rfl
    stoppedQuiet := fun h => ⟨rfl, (htw.stoppedQuiet h).2⟩ }

theorem TwInv.stop {tw : TxWindow} (htw : TwInv tw) :
    TwInv { tw with shared := SharedTimer.off, slots := tw.noSlots, stopped := true } :=
  have hfreed : TwInv { tw with slots := tw.noSlots } :=
    htw.withFewerUnits tw.length_noSlots (by rw [tw.units_noSlots]; exact List.nil_sublist _)
  { hfreed with
    gbnTimer := fun _ => by simp [SharedTimer.off]
    sharedUse := fun _ => rfl
    disarmedRem := fun _ => rfl
    stoppedQuiet := fun _ => ⟨rfl, tw.units_noSlots⟩ }

/-- One RTT sample keeps the estimator in its bounds: each register loses an eighth or a quarter of itself and gains less than 2^24. -/
theorem Estimator.sample_bounds (order : Config.RttvarOrder) (r : BitVec 24) {e : Estimator} (ha : e.sa.toNat < 2 ^ 27)
    (hv : e.sv.toNat < 2 ^ 26) : (e.sample order r).sa.toNat < 2 ^ 27 ∧ (e.sample order r).sv.toNat < 2 ^ 26 := by
  have hr := r.isLt
  have hsa : (e.sample order r).sa.toNat < 2 ^ 27 := by rw [Estimator.sample_sa_toNat order r ha]; omega
  refine ⟨hsa, ?_⟩
  cases order with
  | old =>
    have hsv := Estimator.sample_sv_old r ha hv
    rw [Int.abs_eq_natAbs] at hsv
    omega
  | new =>
    have hsv := Estimator.sample_sv_new r ha hv
    rw [Int.abs_eq_natAbs] at hsv
    omega

theorem TwInv.sample {tw : TxWindow} (htw : TwInv tw) (order : Config.RttvarOrder) (r : BitVec 24) :
    TwInv { tw with est := tw.est.sample order r } :=
  { htw with
    rtoBound := by simp only [Estimator.sample_rto_toNat, Config.rtoMin, Config.rtoMax]; omega
    estBound := Estimator.sample_bounds order r htw.estBound.1 htw.estBound.2 }

/-- Every transmit-window command keeps the invariant. -/
theorem TwEffect.keeps_twInv {s : State} {i : Instr} {tw : TxWindow} (h : TwEffect s i tw) (htw : TwInv s.tw) : TwInv tw := by
  cases h with
  | init r => exact htw.init _ r
  | admitGbn hm hst hab hroom => exact htw.admitGbn hm hst hab hroom
  | admitSr j hm hst hroom hj hspan => exact htw.admitSr hm hst hroom hj hspan
  | ackGbn hm hst hab => exact htw.gbnAck hm hst hab _
  | ackSr hm _ => exact htw.srAck hm _ _
  | arm hm hst => exact htw.arm hm hst _ _
  | cancel hm => exact htw.disarm (by simp [hm])
  | stop => exact htw.stop
  | sample => exact htw.sample _ _

/-- Every command keeps the invariant of TW. -/
theorem exec_keeps_twInv {i : Instr} {s t : State} (h : exec i s = .next t) (htw : TwInv s.tw) : TwInv t.tw := by
  obtain ⟨c, rfl⟩ | ⟨u, r, hu, rfl⟩ := exec_cases h
  · exact htw
  · cases hu with
    | clr l d e c => cases c <;> exact { htw with }
    | tw i tw heff => exact heff.keeps_twInv htw
    | _ => exact htw

/-! ### The services and the arbiter (42_txwindow_timers.md R251-R256) -/

theorem TwInv.serveGbn {tw : TxWindow} (htw : TwInv tw) (hm : tw.cfg.mode = .gbn) (ha : tw.shared.armed = true) :
    TwInv tw.serveGbn.1 := by
  obtain hlt | hge := Nat.lt_or_ge tw.retry.toNat tw.cfg.maxRetries.toNat
  · rw [TxWindow.serveGbn_retx hlt]
    have hcounted : TwInv { tw with shared := { tw.shared with rem := tw.timeout } } := htw.withCount (by simp [ha])
    exact { hcounted with gbnRetries := fun _ => by dsimp only; bv_omega }
  · rw [TxWindow.serveGbn_abort hge]
    exact { htw with
      gbnTimer := fun _ => by simp
      sharedUse := fun _ => rfl
      disarmedRem := fun _ => rfl
      stoppedQuiet := fun h => ⟨rfl, (htw.stoppedQuiet h).2⟩
      abortGbn := fun _ => hm }

theorem TwInv.serveConn {tw : TxWindow} (htw : TwInv tw) (hm : tw.cfg.mode = .conn) (ha : tw.shared.armed = true) :
    TwInv tw.serveConn.1 := by
  unfold TxWindow.serveConn
  split_ifs
  · exact htw.disarm (by simp [hm])
  · have hcounted : TwInv { tw with shared := { tw.shared with rem := tw.est.rto.setWidth 24 } } := htw.withCount (by simp [ha])
    exact { hcounted with gbnRetries := fun h => by simp [hm] at h }

theorem units_set_none_sublist {α : Type} (l : List (Option α)) (j : Nat) : ((l.set j none).reduceOption).Sublist l.reduceOption := by
  induction l generalizing j with
  | nil => simp
  | cons o r ih =>
    cases j with
    | zero => cases o <;> simp
    | succ j => cases o <;> simp [ih j]

/-- An SR slot given up keeps the invariant. -/
theorem TwInv.giveUp {tw : TxWindow} (htw : TwInv tw) (j : Nat) : TwInv (tw.giveUp j) :=
  { htw.withFewerUnits (by simp) (units_set_none_sublist tw.slots j) with }

theorem TwInv.serveSlot {tw : TxWindow} (htw : TwInv tw) (hm : tw.cfg.mode = .sr) (g : Bool) (rule : Config.SrSlide) {j : Nat}
    {t : TimerSlot} (hj : tw.slots[j]? = some (some t)) : TwInv (tw.serveSlot g rule j t).1 := by
  obtain hlt | hge := Nat.lt_or_ge t.retries.toNat tw.cfg.maxRetries.toNat
  · rw [TxWindow.serveSlot_retx g rule j hlt]
    obtain ⟨rest, hold, hnew⟩ :=
      units_set_replace_perm tw.slots j t { seq := t.seq, rem := tw.timeout, retries := t.retries + 1#8 } hj
    have hretried : TwInv { tw with
        slots := tw.slots.set j (some { seq := t.seq, rem := tw.timeout, retries := t.retries + 1#8 }) } := by
      refine htw.withSlots (by simp) ((hnew.map (·.seq)).nodup_iff.mpr ((hold.map (·.seq)).nodup_iff.mp htw.unitsDistinct)) fun u hu => ?_
      obtain rfl | hrest := List.mem_cons.mp (hnew.mem_iff.mp hu)
      · exact { htw.unit (hold.mem_iff.mpr (List.mem_cons_self ..)) with slotRetries := by dsimp only; bv_omega }
      · exact htw.unit (hold.mem_iff.mpr (List.mem_cons_of_mem _ hrest))
    exact { hretried with }
  · rw [TxWindow.serveSlot_giveup g rule j hge]
    dsimp only
    split_ifs
    · exact (htw.giveUp j).slide hm rule
    · exact htw.giveUp j

theorem TwInv.serveOldest {tw : TxWindow} (htw : TwInv tw) {g : Bool} {rule : Config.SrSlide} {x : TxWindow × Event}
    (h : tw.serveOldest g rule = some x) : TwInv x.1 := by
  obtain ⟨hm, ha, -, rfl⟩ | ⟨hm, ha, -, rfl⟩ | ⟨hm, j, t, hj, -, rfl, -⟩ := tw.serveOldest_cases g rule x h
  · exact htw.serveGbn hm ha
  · exact htw.serveConn hm ha
  · exact htw.serveSlot hm g rule hj

theorem TwInv.arbitrate {s : State} (hs : TwInv s.tw) : TwInv s.arbitrate.tw :=
  arbitrateLoop_induct (fun tw _ => TwInv tw) _ _ (fun _ _ _ htw _ hr => htw.serveOldest hr) _ _ _ hs

/-! ### The tick (42_txwindow_timers.md R250) -/

theorem TwInv.tick {tw : TxWindow} (htw : TwInv tw) : TwInv tw.tick := by
  have hunits : tw.tick.slots.reduceOption = tw.units.map fun t => { t with rem := countDown t.rem } := units_map_map tw.slots _
  have hslots : TwInv { tw with slots := tw.tick.slots } := by
    refine htw.withSlots (by simp) ?_ fun t ht => ?_
    · rw [hunits, List.map_map]
      exact htw.unitsDistinct
    · obtain ⟨u, hu, rfl⟩ := List.mem_map.mp (hunits ▸ ht)
      exact { htw.unit hu with }
  cases ha : tw.shared.armed with
  | false =>
    rw [TxWindow.tick, ha]
    exact hslots
  | true =>
    rw [TxWindow.tick, ha]
    exact hslots.withCount (by simp [ha])

/-! ### The host port and the step -/

theorem writeReg_keeps_twInv {s : State} (hs : TwInv s.tw) (w : Word) (r : Reg) : TwInv (s.writeReg w r).tw := by
  cases r with
  | ctrl => simp only [State.writeReg]; split <;> [exact twInv_resetTxWindow; exact hs]
  | twCfg => simp only [State.writeReg, State.unlessBusy]; split <;> [exact hs; exact hs.configure w]
  | twTimeout =>
    simp only [State.writeReg, State.unlessBusy]
    split <;> [exact hs; exact { hs with timeoutPos := warlTimeout_ne_zero _ }]
  | evtPop => simp only [State.writeReg, State.popEvent]; split <;> [exact hs; exact TwInv.arbitrate hs]
  | cmd => simp only [State.writeReg, State.writeCmd]; split <;> exact hs
  | arg0 | arg1 | arg2 | arg3 | rbCfg => simp only [State.writeReg, State.unlessBusy]; split <;> exact hs
  | _ => exact hs

theorem hostWrite_keeps_twInv {s : State} (hs : TwInv s.tw) (size : AccessSize) (a : Nat) (w : Word) :
    TwInv (s.hostWrite size a w).tw := by
  obtain hw | hw | ⟨bs, -, -, -, hw⟩ | ⟨r, -, -, hw⟩ := hostWrite_cases s size a w <;> rw [hw]
  · exact hs
  · exact hs
  · exact hs
  · exact writeReg_keeps_twInv hs w r

theorem complete_keeps_twInv {s t : State} (hs : TwInv s.tw) (h : complete s = .next t) : TwInv t.tw := by
  obtain ⟨-, rfl⟩ | ⟨w, -, ⟨i, u, -, hx, rfl⟩ | ⟨e, -, rfl⟩⟩ := complete_next_cases s t h
  · exact hs
  · exact TwInv.arbitrate (exec_keeps_twInv hx hs)
  · exact TwInv.arbitrate hs

/-- Settles O55: each agent's operations keep the invariant, and so does the arbiter after them. -/
theorem stepKeepsTwInv : Obligations.StepKeepsTwInv := by
  intro s t hs h
  obtain ⟨rest, hc, -⟩ | ⟨x, rest, -, ⟨size, a, -, rfl⟩ | ⟨size, a, w, -, rfl⟩ | ⟨-, rfl⟩ | ⟨-, rfl⟩⟩ :=
    step_next_cases s t h
  · exact complete_keeps_twInv (s := { s with trace := rest }) hs hc
  · obtain ⟨v, hr⟩ | hr := hostRead_cases { s with trace := rest } size a.toNat <;> rw [hr] <;> exact hs
  · exact hostWrite_keeps_twInv (s := { s with trace := rest }) hs size a.toNat w
  · exact TwInv.arbitrate hs.tick
  · exact twInv_resetTxWindow

end Sys2Proof.Machine
end

section
/-! SUPPORT. The arbiter and the tick (42_txwindow_timers.md R250, R251): when a service is due, one round of the loop, and where it ends. -/

namespace Sys2Proof.Machine

/-! ### When a service is due (R251) -/

theorem TxWindow.serveOldest_off (g : Bool) (rule : Config.SrSlide) {tw : TxWindow} (hm : tw.cfg.mode = .off) :
    tw.serveOldest g rule = none := by
  simp only [TxWindow.serveOldest, hm]

theorem TxWindow.serveOldest_gbn (g : Bool) (rule : Config.SrSlide) {tw : TxWindow} (hm : tw.cfg.mode = .gbn) :
    tw.serveOldest g rule = if tw.shared.armed = true ∧ tw.shared.rem = 0#24 then some tw.serveGbn else none := by
  simp only [TxWindow.serveOldest, hm, SharedTimer.expired_iff]

theorem TxWindow.serveOldest_conn (g : Bool) (rule : Config.SrSlide) {tw : TxWindow} (hm : tw.cfg.mode = .conn) :
    tw.serveOldest g rule = if tw.shared.armed = true ∧ tw.shared.rem = 0#24 then some tw.serveConn else none := by
  simp only [TxWindow.serveOldest, hm, SharedTimer.expired_iff]

theorem TxWindow.serveOldest_sr (g : Bool) (rule : Config.SrSlide) {tw : TxWindow} (hm : tw.cfg.mode = .sr) :
    tw.serveOldest g rule = (oldestExpired tw.next 0 tw.slots).map fun x => tw.serveSlot g rule x.1 x.2 := by
  simp only [TxWindow.serveOldest, hm]

theorem TxWindow.serveOldest_isSome_of_sr (g : Bool) (rule : Config.SrSlide) {tw : TxWindow} (hm : tw.cfg.mode = .sr) :
    (tw.serveOldest g rule).isSome = true ↔ ∃ t ∈ tw.units, t.rem = 0#24 := by
  have hnone := not_congr (oldestExpired_eq_none tw.next 0 tw.slots)
  rw [TxWindow.serveOldest_sr g rule hm, Option.isSome_map, Option.isSome_iff_ne_none]
  simpa [TxWindow.units] using hnone

/-- Whether a service is due does not depend on TIMEOUT. -/
theorem TxWindow.serveOldest_timeout (g : Bool) (rule : Config.SrSlide) (tw : TxWindow) (c : BitVec 24) :
    ({ tw with timeout := c } : TxWindow).serveOldest g rule = none ↔ tw.serveOldest g rule = none := by
  unfold TxWindow.serveOldest
  cases tw.cfg.mode with
  | off => exact Iff.rfl
  | gbn | conn => cases tw.shared.expired <;> simp
  | sr => simp

/-! ### The loop (R251) -/

theorem arbitrateLoop_step (g : Bool) (rule : Config.SrSlide) (n : Nat) {tw : TxWindow} {evt : List Event} {x : TxWindow × Event}
    (hroom : evt.length < Config.evtDepth) (hx : tw.serveOldest g rule = some x) :
    arbitrateLoop g rule (n + 1) tw evt = arbitrateLoop g rule n x.1 (evt ++ [x.2]) := by
  rw [arbitrateLoop, if_neg (Nat.not_le.mpr hroom), hx]

/-- One service, and the arbiter again. -/
theorem State.arbitrate_step {s : State} {x : TxWindow × Event} (hroom : s.evt.length < Config.evtDepth)
    (hx : s.tw.serveOldest Config.giveupSlides Config.srSlide = some x) :
    s.arbitrate = ({ s with tw := x.1, evt := s.evt ++ [x.2] } : State).arbitrate := by
  have hloop : arbitrateLoop Config.giveupSlides Config.srSlide Config.evtDepth s.tw s.evt =
      arbitrateLoop Config.giveupSlides Config.srSlide Config.evtDepth x.1 (s.evt ++ [x.2]) := by
    rw [← arbitrateLoop_step _ _ Config.evtDepth hroom hx]
    exact arbitrateLoop_rounds _ _ _ _ _ _ (by omega) (by omega)
  simp only [State.arbitrate, hloop]

theorem State.arbitrate_full {s : State} (h : Config.evtDepth ≤ s.evt.length) : s.arbitrate = s := by
  simp [State.arbitrate, arbitrateLoop, h]

theorem State.arbitrate_of_noExpiryWaits {s : State} (h : NoExpiryWaits s) : s.arbitrate = s :=
  h.elim s.arbitrate_quiet State.arbitrate_full

theorem noExpiryWaits_arbitrate (s : State) : NoExpiryWaits s.arbitrate :=
  arbitrateLoop_ends _ _ _ _ _ (Nat.le_add_left _ _)

theorem State.arbitrate_appends (s : State) : ∃ new, s.arbitrate.evt = s.evt ++ new :=
  arbitrateLoop_induct (fun _ evt => ∃ new, evt = s.evt ++ new) _ _
    (fun _ _ x ⟨new, he⟩ _ _ => ⟨new ++ [x.2], by rw [he, List.append_assoc]⟩) _ _ _ ⟨[], by simp⟩

theorem State.arbitrate_evt_bound {s : State} (h : s.evt.length ≤ Config.evtDepth) : s.arbitrate.evt.length ≤ Config.evtDepth :=
  arbitrateLoop_induct (fun _ evt => evt.length ≤ Config.evtDepth) _ _
    (fun _ _ _ _ hroom _ => by simpa using hroom) _ _ _ h

/-- Settles O38: the cases of a service, one round of the loop, and what every round keeps. -/
theorem arbiterServesUntilQuietOrFull : Obligations.ArbiterServesUntilQuietOrFull :=
  ⟨fun g rule _ => ⟨TxWindow.serveOldest_off g rule, TxWindow.serveOldest_gbn g rule, TxWindow.serveOldest_conn g rule,
      TxWindow.serveOldest_isSome_of_sr g rule⟩,
    fun _ _ _ hroom hx => State.arbitrate_step hroom hx, fun _ => State.arbitrate_of_noExpiryWaits,
    fun s => ⟨noExpiryWaits_arbitrate s, s.arbitrate_appends, s.arbitrate_frame, State.arbitrate_evt_bound⟩⟩

/-! ### Oldest first (R251) -/

/-- The one event of an SR service names the unit served. -/
theorem TxWindow.serveSlot_event (g : Bool) (rule : Config.SrSlide) (j : Nat) (t : TimerSlot) (tw : TxWindow) :
    (tw.serveSlot g rule j t).2.seq = t.seq ∧
      ((tw.serveSlot g rule j t).2.kind = .retx ∨ (tw.serveSlot g rule j t).2.kind = .giveup) := by
  unfold TxWindow.serveSlot
  split
  · exact ⟨rfl, .inr rfl⟩
  · exact ⟨rfl, .inl rfl⟩

/-- Settles O39: the slot is the one `oldestExpired` picks. -/
theorem arbiterServesOldestFirst : Obligations.ArbiterServesOldestFirst := by
  intro g rule tw tw' e hm h
  obtain ⟨hg, -⟩ | ⟨hc, -⟩ | ⟨-, j, t, hj, hrem, hx, hmax⟩ := tw.serveOldest_cases g rule _ h
  · simp [hm] at hg
  · simp [hm] at hc
  · obtain ⟨hseq, hkind⟩ := tw.serveSlot_event g rule j t
    rw [← hx] at hseq hkind
    exact ⟨j, t, hj, hrem, hseq, hkind, hx, hmax⟩

/-! ### The tick (R250) -/

theorem TxWindow.tick_shared_armed (tw : TxWindow) : tw.tick.shared.armed = tw.shared.armed := by
  rw [TxWindow.tick_shared]; split <;> rfl

theorem TxWindow.tick_shared_rem (tw : TxWindow) :
    tw.tick.shared.rem.toNat = if tw.shared.armed then tw.shared.rem.toNat - 1 else tw.shared.rem.toNat := by
  rw [TxWindow.tick_shared]
  split
  · exact countDown_toNat _
  · rfl

theorem countDown_iterate_toNat (c : BitVec 24) (k : Nat) : (countDown^[k] c).toNat = c.toNat - k := by
  induction k with
  | zero => rfl
  | succ k ih => rw [Function.iterate_succ_apply', countDown_toNat, ih]; omega

/-- Settles O37: the counted-down TW is `TxWindow.tick`, slot by slot. -/
theorem tickCountsDown : Obligations.TickCountsDown := by
  refine ⟨fun s => ⟨s.tw.tick, rfl, s.tw.tick_shared_armed, s.tw.tick_shared_rem, rfl, by simp, fun j hj => by simp [hj],
    fun j t hj => ⟨{ t with rem := countDown t.rem }, by simp [hj], rfl, rfl, countDown_toNat t.rem⟩⟩, fun c k => ?_⟩
  rw [BitVec.toNat_eq, countDown_iterate_toNat]
  simp [Nat.sub_eq_zero_iff_le]

/-! ### Stopped (R240, R241) -/

/-- With the shared timer disarmed and no unit a tick counts nothing down. -/
theorem TxWindow.tick_quiet {tw : TxWindow} (ha : tw.shared.armed = false) (hu : tw.units = []) : tw.tick = tw := by
  have hslots : tw.tick.slots = tw.slots := by
    refine (List.map_congr_left fun o ho => ?_).trans (List.map_id _)
    cases o with
    | none => rfl
    | some t =>
      have ht : t ∈ tw.units := (mem_units tw.slots t).mpr ho
      simp [hu] at ht
  rw [TxWindow.tick, ha]
  exact congrArg (fun l => { tw with slots := l }) hslots

/-- Of the commands only TW_INIT clears `stopped`. -/
theorem TwEffect.eq_twInit_of_restarts {s : State} {i : Instr} {tw : TxWindow} (h : TwEffect s i tw) (hs : s.tw.stopped = true)
    (ht : tw.stopped = false) : ∃ r, i = .twInit r := by
  cases h with
  | init r => exact ⟨r, rfl⟩
  | admitGbn _ hst | admitSr _ _ hst | ackGbn _ hst | ackSr _ hst | arm _ hst => simp [hs] at hst
  | cancel | sample => simp [hs] at ht
  | stop => simp at ht

theorem exec_restarts {i : Instr} {s t : State} (hs : s.tw.stopped = true) (h : exec i s = .next t) (ht : t.tw.stopped = false) :
    ∃ r, i = .twInit r := by
  obtain ⟨c, rfl⟩ | ⟨u, r, hu, rfl⟩ := exec_cases h
  · simp [hs] at ht
  · cases hu with
    | tw i tw heff => exact heff.eq_twInit_of_restarts hs ht
    | clr l d e c => cases c <;> simp [hs] at ht
    | _ => simp [hs] at ht

/-- A completion that clears `stopped` is that of TW_INIT. -/
theorem complete_restarts {s t : State} (hs : s.tw.stopped = true) (h : complete s = .next t) (ht : t.tw.stopped = false) :
    ∃ w r, s.pending = some w ∧ decode w = .ok (.twInit r) := by
  obtain ⟨-, rfl⟩ | ⟨w, hw, ⟨i, u, hd, hx, rfl⟩ | ⟨e, -, rfl⟩⟩ := complete_next_cases s t h
  · simp [hs] at ht
  · rw [State.arbitrate_stopped] at ht
    obtain ⟨r, rfl⟩ := exec_restarts (s := { s with pending := none }) hs hx ht
    exact ⟨w, r, hw, hd⟩
  · rw [State.arbitrate_stopped] at ht
    simp [hs] at ht

/-- A register write that clears `stopped` is one of TW_CFG with nothing pending, or a soft reset. -/
theorem writeReg_restarts {s : State} {w : Word} {r : Reg} (hs : s.tw.stopped = true) (ht : (s.writeReg w r).tw.stopped = false) :
    (r = .twCfg ∧ s.pending = none) ∨ (r = .ctrl ∧ w.getLsbD 0 = true) := by
  by_cases hcfg : r = .twCfg
  · subst hcfg
    cases hp : s.pending with
    | none => exact .inl ⟨rfl, rfl⟩
    | some c => simp [State.writeReg, State.unlessBusy, State.busy, hp, hs] at ht
  by_cases hctrl : r = .ctrl
  · subst hctrl
    refine .inr ⟨rfl, ?_⟩
    by_contra hw
    rw [State.writeReg, if_neg hw, hs] at ht
    cases ht
  rw [writeReg_stopped s w r hcfg hctrl, hs] at ht
  cases ht

/-- A host write that clears `stopped` is a 32-bit one of TW_CFG with nothing pending, or of CTRL with bit 0 set. -/
theorem hostWrite_restarts {s : State} {size : AccessSize} {a : BitVec 12} {w : Word} (hs : s.tw.stopped = true)
    (ht : (s.hostWrite size a.toNat w).tw.stopped = false) :
    size = .word ∧ ((a = 0x050#12 ∧ s.pending = none) ∨ (a = 0x010#12 ∧ w.getLsbD 0 = true)) := by
  obtain hw | hw | ⟨bs, -, -, -, hw⟩ | ⟨r, hsize, hr, hw⟩ := hostWrite_cases s size a.toNat w <;> rw [hw] at ht
  · simp [hs] at ht
  · simp [hs] at ht
  · simp [hs] at ht
  · refine ⟨hsize, ?_⟩
    obtain ⟨rfl, hp⟩ | ⟨rfl, hbit⟩ := writeReg_restarts hs ht
    · exact .inl ⟨BitVec.eq_of_toNat_eq (regAt_twCfg _ hr), hp⟩
    · exact .inr ⟨BitVec.eq_of_toNat_eq (regAt_ctrl _ hr), hbit⟩

theorem step_restarts {s t : State} (hs : s.tw.stopped = true) (h : step s = .next t) (ht : t.tw.stopped = false) :
    (∃ w r, s.pending = some w ∧ decode w = .ok (.twInit r) ∧ (s.trace = [] ∨ ∃ rest, s.trace = .engine :: rest)) ∨
    (∃ w rest, s.trace = .write .word 0x050#12 w :: rest ∧ s.pending = none) ∨
    (∃ w rest, s.trace = .write .word 0x010#12 w :: rest ∧ w.getLsbD 0 = true) ∨
    ∃ rest, s.trace = .hwReset :: rest := by
  obtain ⟨rest, hc, htr⟩ | ⟨x, rest, htr, ⟨size, a, rfl, rfl⟩ | ⟨size, a, w, rfl, rfl⟩ | ⟨rfl, rfl⟩ | ⟨rfl, rfl⟩⟩ :=
    step_next_cases s t h
  · obtain ⟨w, r, hw, hd⟩ := complete_restarts (s := { s with trace := rest }) hs hc ht
    exact .inl ⟨w, r, hw, hd, htr.symm.imp And.left fun he => ⟨rest, he⟩⟩
  · obtain ⟨v, hr⟩ | hr := hostRead_cases { s with trace := rest } size a.toNat <;> simp [hr, hs] at ht
  · obtain ⟨rfl, ⟨rfl, hp⟩ | ⟨rfl, hbit⟩⟩ := hostWrite_restarts (s := { s with trace := rest }) hs ht
    · exact .inr (.inl ⟨w, rest, htr, hp⟩)
    · exact .inr (.inr (.inl ⟨w, rest, htr, hbit⟩))
  · rw [State.tick, State.arbitrate_stopped] at ht
    simp [hs] at ht
  · exact .inr (.inr (.inr ⟨rest, htr⟩))

theorem State.tick_stopped {s : State} (htw : TwInv s.tw) (hs : s.tw.stopped = true) : s.tick = s := by
  obtain ⟨ha, hu⟩ := htw.stoppedQuiet hs
  rw [State.tick, TxWindow.tick_quiet ha hu]
  exact s.arbitrate_quiet (TxWindow.serveOldest_quiet _ _ _ ha hu)

/-- Settles O41: while stopped no timer is armed, and each agent's step is searched for what clears the bit. -/
theorem nothingFiresWhileStopped : Obligations.NothingFiresWhileStopped :=
  ⟨fun _ => State.tick_stopped, fun _ _ _ => exec_restarts, fun _ _ => step_restarts⟩

/-! ### No expiry waits (R251, R258) -/

theorem writeReg_keeps_noExpiryWaits {s : State} (hs : NoExpiryWaits s) (w : Word) (r : Reg) : NoExpiryWaits (s.writeReg w r) := by
  cases r with
  | ctrl => simp only [State.writeReg]; split <;> [exact .inl rfl; exact hs]
  | twCfg =>
    simp only [State.writeReg, State.unlessBusy]
    split <;> [exact hs; exact .inl (TxWindow.serveOldest_quiet _ _ _ rfl (TxWindow.units_noSlots _))]
  | twTimeout =>
    simp only [State.writeReg, State.unlessBusy]
    split <;> [exact hs; exact hs.imp_left (TxWindow.serveOldest_timeout _ _ _ _).mpr]
  | evtPop => simp only [State.writeReg, State.popEvent]; split <;> [exact hs; exact noExpiryWaits_arbitrate _]
  | cmd => simp only [State.writeReg, State.writeCmd]; split <;> exact hs
  | arg0 | arg1 | arg2 | arg3 | rbCfg => simp only [State.writeReg, State.unlessBusy]; split <;> exact hs
  | _ => exact hs

theorem hostWrite_keeps_noExpiryWaits {s : State} (hs : NoExpiryWaits s) (size : AccessSize) (a : Nat) (w : Word) :
    NoExpiryWaits (s.hostWrite size a w) := by
  obtain hw | hw | ⟨bs, -, -, -, hw⟩ | ⟨r, -, -, hw⟩ := hostWrite_cases s size a w <;> rw [hw]
  · exact hs
  · exact hs
  · exact hs
  · exact writeReg_keeps_noExpiryWaits hs w r

theorem complete_keeps_noExpiryWaits {s t : State} (hs : NoExpiryWaits s) (h : complete s = .next t) : NoExpiryWaits t := by
  obtain ⟨-, rfl⟩ | ⟨w, -, ⟨i, u, -, -, rfl⟩ | ⟨e, -, rfl⟩⟩ := complete_next_cases s t h
  · exact hs
  · exact noExpiryWaits_arbitrate u
  · exact noExpiryWaits_arbitrate _

/-- Settles O57: a completion and a tick end with the arbiter, and a host access arms no timer that has run out. -/
theorem stepLeavesNoExpiryWaiting : Obligations.StepLeavesNoExpiryWaiting := by
  intro s t _ hs h
  obtain ⟨rest, hc, -⟩ | ⟨x, rest, -, ⟨size, a, -, rfl⟩ | ⟨size, a, w, -, rfl⟩ | ⟨-, rfl⟩ | ⟨-, rfl⟩⟩ :=
    step_next_cases s t h
  · exact complete_keeps_noExpiryWaits (s := { s with trace := rest }) hs hc
  · obtain ⟨v, hr⟩ | hr := hostRead_cases { s with trace := rest } size a.toNat <;> rw [hr] <;> exact hs
  · exact hostWrite_keeps_noExpiryWaits (s := { s with trace := rest }) hs size a.toNat w
  · exact noExpiryWaits_arbitrate _
  · exact .inl rfl

end Sys2Proof.Machine
end

section
/-! SUPPORT. The encoder and the decoder are inverse to each other, class by class of the commands (30_encoding.md R101-R105). -/

namespace Sys2Proof

/-! ### Decoding an encoded command -/

/-- An encoded CMD-R command has no reserved bit set. -/
theorem decodeR_encode {i : Instr} (hf : i.flags = 0#8) (hl : i.lenBits = 0#16) (j : Instr) : decodeR (encode i) j = .ok j := by
  rw [decodeR_eq, flagField_encode, lenField_encode, if_pos ⟨hf, hl⟩]

/-- An encoded CMD-L command carries its LEN. -/
theorem decodeL_encode {i : Instr} {len : Nat} (hlen : len < 65536) (hf : i.flags = 0#8) (hl : i.lenBits = BitVec.ofNat 16 len)
    (mk : Nat → Instr) : decodeL (encode i) mk = .ok (mk len) := by
  rw [decodeL_eq, flagField_encode, lenField_encode, if_pos hf, hl, BitVec.toNat_ofNat, Nat.mod_eq_of_lt hlen]

theorem decode_encode_clr (l d e c : Bool) : decode (encode (.clr l d e c)) = .ok (.clr l d e c) := by
  revert l d e c; decide

theorem decode_encode_twInit (r : Bool) : decode (encode (.twInit r)) = .ok (.twInit r) := by
  revert r; decide

theorem decode_encode {i : Instr} (hwf : i.wellFormed = true) : decode (encode i) = .ok i := by
  cases i with
  | clr l d e c => exact decode_encode_clr l d e c
  | twInit r => exact decode_encode_twInit r
  | encFrame len | decFrame len | encSeg len | decSeg len =>
    have hlen : len < 65536 := of_decide_eq_true hwf
    simp only [decode, opcField_encode, Instr.opcode]
    exact decodeL_encode hlen rfl rfl _
  | nop | rbPush | rbSetexp | dlvPop | twAdmit | twAck | twArm | twCancel | twStop | rtoSample =>
    simp only [decode, opcField_encode, Instr.opcode]
    exact decodeR_encode rfl rfl _

/-! ### Encoding a decoded command -/

/-- The command is well formed and its word is w. -/
def EncodesTo (i : Instr) (w : Word) : Prop := i.wellFormed = true ∧ encode i = w

/-- A command with the word's three fields has that word. -/
theorem encode_eq_of_fields {i : Instr} {w : Word} (ho : opcField w = i.opcode) (hf : flagField w = i.flags)
    (hl : lenField w = i.lenBits) : encode i = w :=
  word_ext _ _ (by rw [opcField_encode, ho]) (by rw [flagField_encode, hf]) (by rw [lenField_encode, hl])

theorem encodesTo_of_decodeR {w : Word} {i j : Instr} (h : decodeR w i = .ok j) (ho : opcField w = i.opcode)
    (hwf : i.wellFormed = true) (hf : i.flags = 0#8) (hl : i.lenBits = 0#16) : EncodesTo j w := by
  rw [decodeR_eq] at h
  split_ifs at h with hclear
  cases h
  exact ⟨hwf, encode_eq_of_fields ho (hclear.1.trans hf.symm) (hclear.2.trans hl.symm)⟩

theorem encodesTo_of_decodeL {w : Word} {mk : Nat → Instr} {j : Instr} (h : decodeL w mk = .ok j)
    (ho : ∀ len, opcField w = (mk len).opcode) (hwf : ∀ len, (mk len).wellFormed = lenFits len) (hf : ∀ len, (mk len).flags = 0#8)
    (hl : ∀ len, (mk len).lenBits = BitVec.ofNat 16 len) : EncodesTo j w := by
  rw [decodeL_eq] at h
  split_ifs at h with hclear
  cases h
  refine ⟨(hwf _).trans (decide_eq_true (lenField w).isLt), encode_eq_of_fields (ho _) (hclear.trans (hf _).symm) ?_⟩
  rw [hl, BitVec.ofNat_toNat, BitVec.setWidth_eq]

/-- F as the four selects of CLR, where its upper half is 0. -/
theorem flags_clr (f : BitVec 8) (h : f.extractLsb' 4 4 = 0#4) :
    f = (Instr.clr (f.getLsbD 0) (f.getLsbD 1) (f.getLsbD 2) (f.getLsbD 3)).flags := by
  revert f; decide

/-- F as the one select of TW_INIT, where every other bit is 0. -/
theorem flags_twInit (f : BitVec 8) (h : f.extractLsb' 1 7 = 0#7) : f = (Instr.twInit (f.getLsbD 0)).flags := by
  revert f; decide

theorem encodesTo_of_decodeClr {w : Word} {j : Instr} (h : decodeClr w = .ok j) (ho : opcField w = 0x01#8) : EncodesTo j w := by
  simp only [decodeClr, unlessReserved] at h
  split_ifs at h with hclear
  cases h
  simp only [Bool.and_eq_true, beq_iff_eq] at hclear
  exact ⟨rfl, encode_eq_of_fields ho (flags_clr _ hclear.1) hclear.2⟩

theorem encodesTo_of_decodeTwInit {w : Word} {j : Instr} (h : decodeTwInit w = .ok j) (ho : opcField w = 0x30#8) : EncodesTo j w := by
  simp only [decodeTwInit, unlessReserved] at h
  split_ifs at h with hclear
  cases h
  simp only [Bool.and_eq_true, beq_iff_eq] at hclear
  exact ⟨rfl, encode_eq_of_fields ho (flags_twInit _ hclear.1) hclear.2⟩

theorem encodesTo_of_decode {w : Word} {i : Instr} (h : decode w = .ok i) : EncodesTo i w := by
  unfold decode at h
  split at h
  case h_3 ho | h_4 ho | h_5 ho | h_6 ho =>
    exact encodesTo_of_decodeL h (fun _ => ho) (fun _ => rfl) (fun _ => rfl) fun _ => rfl
  case h_2 ho => exact encodesTo_of_decodeClr h ho
  case h_10 ho => exact encodesTo_of_decodeTwInit h ho
  case h_17 => cases h
  all_goals next ho => exact encodesTo_of_decodeR h ho rfl rfl rfl

/-- Settles O1, class by class of the commands. -/
theorem encodeThenDecode : Obligations.EncodeThenDecode := fun _ => decode_encode

/-- Settles O2: the three fields of the word are those of the command read from it. -/
theorem decodeThenEncode : Obligations.DecodeThenEncode := fun _ _ => encodesTo_of_decode

/-- Settles O3, word by word. -/
theorem vectorWordsDecode : Obligations.VectorWordsDecode := by
  unfold Obligations.VectorWordsDecode
  decide

end Sys2Proof
end

section
/-! SUPPORT. What the commands leave unchanged, unit by unit (41_reorder.md, 42_txwindow_timers.md, 43_control.md), from their effects. -/

namespace Sys2Proof.Machine

/-! ### The buffers (20_memory.md R84) -/

/-- A command leaves the buffers alone or writes its output to OBUF; the output fits OBUF where no payload waiting in DLV is too long. -/
theorem CommandEffect.mem_cases {s u : State} {i : Instr} (h : CommandEffect s i u) :
    u.mem = s.mem ∨ ∃ bs, u.mem = s.mem.setBytes obufBase bs ∧ bs.length = outputLength i s ∧
      (QueueInv s → bs.length ≤ Config.bufBytes) := by
  cases h with
  | encFrame len bs hlen hbs => exact .inr ⟨bs, rfl, hbs, fun _ => by simp only [Config.bufBytes]; omega⟩
  | encSeg len bs hlen hbs => exact .inr ⟨bs, rfl, hbs, fun _ => by simp only [Config.bufBytes]; omega⟩
  | decFrame len l _ hhi _ hp => exact .inr ⟨_, rfl, hp, fun _ => by simp only [Config.bufBytes]; omega⟩
  | decSeg len l _ hhi _ hp => exact .inr ⟨_, rfl, hp, fun _ => by simp only [Config.bufBytes]; omega⟩
  | dlvPop e q hd =>
    refine .inr ⟨_, rfl, by simp [outputLength, hd], fun hq => ?_⟩
    have hpay : e.payload.length ≤ 1003 := hq.payloads e (by simp [hd])
    simp only [Config.bufBytes]
    omega
  | _ => exact .inl rfl

/-- Every byte outside the output in OBUF reads as before. -/
theorem CommandEffect.byteAt_outside {s u : State} {i : Instr} (h : CommandEffect s i u) {a : Nat}
    (ha : a < 0x800 ∨ 0x800 + outputLength i s ≤ a) : u.mem.byteAt a = s.mem.byteAt a := by
  obtain hm | ⟨bs, hm, hbs, -⟩ := h.mem_cases <;> rw [hm]
  exact s.mem.byteAt_setBytes_outside obufBase a bs (hbs ▸ ha)

/-! ### The transmit-window commands (42_txwindow_timers.md R220-R243) -/

/-- What of TW each of its commands leaves as it was. -/
def TwFrame (i : Instr) (tw tw' : TxWindow) : Prop :=
  tw'.cfg = tw.cfg ∧ tw'.timeout = tw.timeout ∧ tw'.giveupCnt = tw.giveupCnt ∧ tw'.retxCnt = tw.retxCnt ∧
  (i ≠ .rtoSample → i ≠ .twInit true → tw'.est = tw.est) ∧
  ((∀ r, i ≠ .twInit r) → tw'.abort = tw.abort ∧ (i ≠ .twStop → tw'.stopped = tw.stopped)) ∧
  (i = .twArm ∨ i = .twCancel ∨ i = .twStop ∨ i = .rtoSample → tw'.base = tw.base ∧ tw'.next = tw.next) ∧
  (i = .twArm ∨ i = .twCancel ∨ i = .rtoSample → tw'.slots = tw.slots) ∧
  (i = .twAdmit → tw'.base = tw.base ∧ tw'.retry = tw.retry ∧ tw'.ptag = tw.ptag) ∧
  (i = .twAck → tw'.next = tw.next ∧ tw'.ptag = tw.ptag) ∧
  (i = .twCancel ∨ i = .twStop ∨ i = .rtoSample → tw'.retry = tw.retry ∧ tw'.ptag = tw.ptag) ∧
  (i = .rtoSample → tw'.shared = tw.shared)

theorem TwFrame.refl (i : Instr) (tw : TxWindow) : TwFrame i tw tw := by simp [TwFrame]

/-- A GBN acknowledgment writes the base, the retry counter and the shared timer. -/
theorem TxWindow.gbnAck_eq (k : Word) (tw : TxWindow) :
    ∃ b r sh, (tw.gbnAck k).2 = { tw with base := b, retry := r, shared := sh } := by
  unfold TxWindow.gbnAck
  split
  · exact ⟨_, _, _, rfl⟩
  · exact ⟨_, _, _, rfl⟩

/-- An SR acknowledgment writes the slots and the base. -/
theorem TxWindow.srAck_eq (rule : Config.SrSlide) (k : Word) (tw : TxWindow) :
    ∃ b, (tw.srAck rule k).2 = { tw with slots := freeSeq k tw.slots, base := b } := by
  obtain ⟨n, -, he⟩ := TxWindow.slideAt_eq rule k { tw with slots := freeSeq k tw.slots }
  exact ⟨_, he⟩

theorem TwEffect.frame {s : State} {i : Instr} {tw : TxWindow} (h : TwEffect s i tw) : TwFrame i s.tw tw := by
  cases h with
  | init r => cases r <;> simp [TwFrame]
  | ackGbn =>
    obtain ⟨b, r, sh, he⟩ := s.tw.gbnAck_eq s.argWord
    simp [TwFrame, he]
  | ackSr =>
    obtain ⟨b, he⟩ := s.tw.srAck_eq Config.srSlide s.argWord
    simp [TwFrame, he]
  | admitGbn | admitSr | arm | cancel | stop | sample => simp [TwFrame]

/-- A transmit-window command writes TW, and no other part of the state but the results. -/
theorem CommandEffect.eq_withTw {s u : State} {i : Instr} (h : CommandEffect s i u)
    (hi : i = .twAdmit ∨ i = .twAck ∨ i = .twArm ∨ i = .twCancel ∨ i = .twStop ∨ i = .rtoSample ∨ ∃ r, i = .twInit r) :
    ∃ tw, TwEffect s i tw ∧ u = { s with tw := tw } := by
  cases h with
  | tw _ tw heff => exact ⟨tw, heff, rfl⟩
  | _ => simp at hi

/-- Settles O51: a success writes TW by the command's effect, and a failure nothing. -/
theorem txWindowFrame : Obligations.TxWindowFrame := by
  intro i s t h hi
  obtain ⟨c, rfl⟩ | ⟨u, r, hu, rfl⟩ := exec_cases h
  · exact ⟨fun _ => rfl, rfl, TwFrame.refl i s.tw⟩
  · obtain ⟨tw, heff, rfl⟩ := hu.eq_withTw hi
    exact ⟨fun _ => rfl, rfl, heff.frame⟩

/-! ### The codec commands and DLV_POP -/

/-- Settles O52: the bytes by the commands' output, and the rest of the state case by case. -/
theorem bufferWritingFrame : Obligations.BufferWritingFrame := by
  intro i s t len h hi
  obtain ⟨c, rfl⟩ | ⟨u, r, hu, rfl⟩ := exec_cases h
  · exact ⟨fun _ _ => rfl, rfl, fun _ => rfl, fun _ => rfl⟩
  refine ⟨fun _ => hu.byteAt_outside, ?_⟩
  cases hu with
  | encFrame | encSeg => exact ⟨rfl, fun _ => rfl, fun _ => rfl⟩
  | decFrame | decFrameShort | decSeg | decSegShort => exact ⟨rfl, by simp, fun _ => rfl⟩
  | dlvPop => exact ⟨rfl, fun _ => rfl, by simp⟩
  | tw i tw heff => cases heff <;> simp at hi
  | _ => simp at hi

/-! ### NOP, CLR, RB_PUSH and RB_SETEXP -/

/-- Settles O53: none of the four writes OBUF, and the rest of the state case by case. -/
theorem bufferKeepingFrame : Obligations.BufferKeepingFrame := by
  intro i s t l d e c h hi
  obtain ⟨code, rfl⟩ | ⟨u, r, hu, rfl⟩ := exec_cases h
  · exact ⟨fun _ => rfl, rfl, fun _ => ⟨rfl, rfl⟩, fun _ => rfl, fun _ => ⟨rfl, rfl⟩⟩
  cases hu with
  | nop => exact ⟨fun _ => rfl, rfl, fun _ => ⟨rfl, rfl⟩, fun _ => rfl, fun _ => ⟨rfl, rfl⟩⟩
  | clr l' d' e' c' =>
    obtain ⟨rfl, rfl, rfl, rfl⟩ : l' = l ∧ d' = d ∧ e' = e ∧ c' = c := by simpa using hi
    exact ⟨fun _ => rfl, by cases c' <;> rfl, by simp, fun _ => rfl, by simp⟩
  | rbPush => exact ⟨fun _ => rfl, rfl, fun _ => ⟨rfl, rfl⟩, by simp, by simp⟩
  | rbSetexp => exact ⟨fun _ => rfl, rfl, fun _ => ⟨rfl, rfl⟩, by simp, fun _ => ⟨rfl, rfl⟩⟩
  | tw i tw heff => cases heff <;> simp at hi
  | _ => simp at hi

end Sys2Proof.Machine
end

section
/-! SUPPORT. The bounds of the queues, of the latch and of ERRCODE, the form of the buffers, and what no agent but the engine publishes
(10_state.md R51-R53, 20_memory.md R84, R92, 60_exceptions.md R300): each operation keeps them. -/

namespace Sys2Proof.Machine

/-! ### What RB_PUSH delivers fits MAX_PAYLOAD -/

theorem mem_srDrain {slots : List (Option RbSlot)} {n : Nat} {x : Word} {e : DlvEntry} (he : e ∈ (srDrain slots n x).1) :
    ({ seq := e.seq, payload := e.payload } : RbSlot) ∈ slots.reduceOption := by
  obtain ⟨k, hk⟩ := List.mem_iff_getElem?.mp he
  obtain ⟨-, hent, -, -⟩ := srDrain_spec slots n x
  exact (hent k e hk).2

theorem mem_connDrain {slots : List (Option RbSlot)} {n : Nat} {x : Word} {e : DlvEntry} (he : e ∈ (connDrain slots n x).1) :
    ({ seq := e.seq, payload := e.payload } : RbSlot) ∈ slots.reduceOption := by
  obtain ⟨-, -, -, hheld, -, -, -⟩ := connDrain_spec slots n x
  exact hheld e he

/-- The entries of a verdict carry payloads that RB may hold. -/
def Verdict.DeliversWithin (v : Verdict) : Prop := ∀ e ∈ v.deliver, e.payload.length ≤ Config.maxPayload

theorem Reorder.only_deliversWithin (rb : Reorder) (a : Action) (k : Option Word) : (rb.only a k).DeliversWithin := by
  simp [Verdict.DeliversWithin, Reorder.only]

theorem Reorder.buffer_deliversWithin (rb : Reorder) (l : Latch) (k k' : Option Word) : (rb.buffer l k k').DeliversWithin := by
  unfold Reorder.buffer
  split <;> simp [Verdict.DeliversWithin, Reorder.only]

theorem gbnRule_deliversWithin (isData : Bool) (rb : Reorder) (l : Latch) : (gbnRule isData rb l).DeliversWithin := by
  unfold gbnRule
  dsimp only
  split_ifs with hok hdata hseq hlen
  · exact rb.only_deliversWithin _ _
  · exact rb.only_deliversWithin _ _
  · exact rb.only_deliversWithin _ _
  · exact rb.only_deliversWithin _ _
  · exact List.forall_mem_singleton.mpr (Nat.not_lt.mp hlen)

theorem srRule_deliversWithin {rb : Reorder} (hrb : RbInv rb) (isData : Bool) (l : Latch) : (srRule isData rb l).DeliversWithin := by
  unfold srRule
  dsimp only
  split_ifs with hok hdata hin hlen he hheld hbehind
  · exact rb.only_deliversWithin _ _
  · exact rb.only_deliversWithin _ _
  · exact rb.only_deliversWithin _ _
  · exact List.forall_mem_cons.mpr ⟨Nat.not_lt.mp hlen, fun e he => hrb.payloadBound _ (mem_srDrain he)⟩
  · exact rb.only_deliversWithin _ _
  · exact rb.buffer_deliversWithin _ _ _
  · exact rb.only_deliversWithin _ _
  · exact rb.only_deliversWithin _ _

theorem connRule_deliversWithin {rb : Reorder} (hrb : RbInv rb) (l : Latch) : (connRule rb l).DeliversWithin := by
  unfold connRule
  dsimp only
  split_ifs with hok hempty hlen he hah hheld
  · exact rb.only_deliversWithin _ _
  · exact rb.only_deliversWithin _ _
  · exact rb.only_deliversWithin _ _
  · exact List.forall_mem_cons.mpr ⟨Nat.not_lt.mp hlen, fun e he => hrb.payloadBound _ (mem_connDrain he)⟩
  · exact List.forall_mem_nil _
  · exact rb.buffer_deliversWithin _ _ _
  · exact rb.only_deliversWithin _ _

theorem modeRule_deliversWithin {rb : Reorder} (hrb : RbInv rb) (isData : Bool) (l : Latch) :
    (modeRule isData rb l).DeliversWithin := by
  unfold modeRule
  split
  · exact gbnRule_deliversWithin isData rb l
  · exact srRule_deliversWithin hrb isData l
  · exact connRule_deliversWithin hrb l
  · exact rb.only_deliversWithin _ _

/-! ### A command and a completion keep the bounds -/

theorem CommandEffect.keeps_queueInv {s u : State} {i : Instr} (h : CommandEffect s i u) (hrb : RbInv s.rb) (hq : QueueInv s) :
    QueueInv u := by
  cases h with
  | clr l d e c =>
    exact {
      dlvBound := by cases d <;> simp [hq.dlvBound]
      evtBound := by cases e <;> simp [hq.evtBound]
      payloads := by cases d <;> [exact hq.payloads; exact List.forall_mem_nil _] }
  | rbPush v l hl hv hroom =>
    refine { dlvBound := by simpa using hroom, evtBound := hq.evtBound, payloads := fun e he => ?_ }
    obtain hold | hnew := List.mem_append.mp he
    · exact hq.payloads e hold
    · exact modeRule_deliversWithin hrb _ l e (hv ▸ hnew)
  | dlvPop e q hd =>
    exact {
      dlvBound := Nat.le_trans (by simp [hd]) hq.dlvBound
      evtBound := hq.evtBound
      payloads := fun e' he' => hq.payloads e' (hd ▸ List.mem_cons_of_mem e he') }
  | _ => exact { hq with }

theorem CommandEffect.keeps_latchInv {s u : State} {i : Instr} (h : CommandEffect s i u) (hl : LatchInv s) : LatchInv u := by
  cases h with
  | clr l d e c => cases l with
    | true => exact fun l' hl' => by cases hl'
    | false => exact hl
  | decFrame len l hlo hhi hfmt hp =>
    rintro _ ⟨⟩
    exact ⟨by omega, by simp [hfmt]⟩
  | decSeg len l hlo hhi hfmt hp =>
    rintro _ ⟨⟩
    exact ⟨by omega, fun _ => by omega⟩
  | decFrameShort | decSegShort | rbPush => exact fun l' hl' => by cases hl'
  | _ => exact hl

/-- The bounds that a step keeps: of the queues, of the latch, and ERR with ERRCODE. -/
structure Bounds (s : State) : Prop where
  queues : QueueInv s
  latch : LatchInv s
  err : ErrInv s

theorem ErrCode.bits_ne_zero (c : ErrCode) : c.bits ≠ 0#4 := by cases c <;> decide

theorem Bounds.raise {s : State} (hs : Bounds s) (c : ErrCode) : Bounds (s.raise c) where
  queues := { hs.queues with }
  latch := hs.latch
  err := ⟨iff_of_true rfl c.bits_ne_zero, c.bits_range.2⟩

theorem exec_keeps_bounds {i : Instr} {s t : State} (h : exec i s = .next t) (hrb : RbInv s.rb) (hs : Bounds s) : Bounds t := by
  obtain ⟨c, rfl⟩ | ⟨u, r, hu, rfl⟩ := exec_cases h
  · exact hs.raise c
  · exact ⟨{ hu.keeps_queueInv hrb hs.queues with }, hu.keeps_latchInv hs.latch, by simp [ErrInv]⟩

theorem Bounds.arbitrate {s : State} (hs : Bounds s) : Bounds s.arbitrate where
  queues := { hs.queues with evtBound := State.arbitrate_evt_bound hs.queues.evtBound }
  latch := hs.latch
  err := hs.err

theorem complete_keeps_bounds {s t : State} (hrb : RbInv s.rb) (hs : Bounds s) (h : complete s = .next t) : Bounds t := by
  have hempty : Bounds { s with pending := none } := ⟨{ hs.queues with }, hs.latch, hs.err⟩
  obtain ⟨-, rfl⟩ | ⟨w, -, ⟨i, u, -, hx, rfl⟩ | ⟨e, -, rfl⟩⟩ := complete_next_cases s t h
  · exact hs
  · exact (exec_keeps_bounds hx hrb hempty).arbitrate
  · exact (hempty.raise _).arbitrate

/-! ### What the other agents leave as it was -/

/-- What a completion publishes reads the same in both states (20_memory.md R92), the buffers and RB apart. -/
structure SamePublished (s t : State) : Prop where
  res : t.res = s.res
  latch : t.latch = s.latch
  dlv : t.dlv = s.dlv
  err : t.err = s.err
  errcode : t.errcode = s.errcode

theorem SamePublished.refl (s : State) : SamePublished s s := ⟨rfl, rfl, rfl, rfl, rfl⟩

/-- The bounds speak of what a completion publishes, and of the length of EVT. -/
theorem SamePublished.bounds {s t : State} (h : SamePublished s t) (hs : Bounds s) (hevt : t.evt.length ≤ Config.evtDepth) :
    Bounds t where
  queues := { dlvBound := h.dlv ▸ hs.queues.dlvBound, evtBound := hevt, payloads := h.dlv ▸ hs.queues.payloads }
  latch := by unfold LatchInv; rw [h.latch]; exact hs.latch
  err := by unfold ErrInv; rw [h.err, h.errcode]; exact hs.err

/-- A register write other than a soft reset publishes nothing. -/
theorem writeReg_publishes_nothing (s : State) (w : Word) {r : Reg} (hr : r ≠ .ctrl) : SamePublished s (s.writeReg w r) := by
  cases r with
  | ctrl => exact absurd rfl hr
  | evtPop => simp only [State.writeReg, State.popEvent]; split <;> [exact .refl s; exact ⟨rfl, rfl, rfl, rfl, rfl⟩]
  | cmd => simp only [State.writeReg, State.writeCmd]; split <;> exact ⟨rfl, rfl, rfl, rfl, rfl⟩
  | arg0 | arg1 | arg2 | arg3 | twCfg | twTimeout | rbCfg =>
    simp only [State.writeReg, State.unlessBusy]; split <;> exact ⟨rfl, rfl, rfl, rfl, rfl⟩
  | _ => exact ⟨rfl, rfl, rfl, rfl, rfl⟩

theorem writeReg_evt_bound (s : State) (w : Word) (r : Reg) (h : s.evt.length ≤ Config.evtDepth) :
    (s.writeReg w r).evt.length ≤ Config.evtDepth := by
  cases r with
  | ctrl => simp only [State.writeReg]; split <;> [exact Nat.zero_le _; exact h]
  | evtPop =>
    simp only [State.writeReg, State.popEvent]
    split
    · exact h
    · next e r he => exact State.arbitrate_evt_bound (Nat.le_trans (by simp [he]) h)
  | cmd => simp only [State.writeReg, State.writeCmd]; split <;> exact h
  | arg0 | arg1 | arg2 | arg3 | twCfg | twTimeout | rbCfg => simp only [State.writeReg, State.unlessBusy]; split <;> exact h
  | _ => exact h

/-- No register write touches the buffers (20_memory.md R86, 70_reset_and_hazards.md R341). -/
theorem writeReg_mem (s : State) (w : Word) (r : Reg) : (s.writeReg w r).mem = s.mem := by
  cases r with
  | ctrl => simp only [State.writeReg]; split <;> rfl
  | evtPop => simp only [State.writeReg, State.popEvent]; split <;> rfl
  | cmd => simp only [State.writeReg, State.writeCmd]; split <;> rfl
  | arg0 | arg1 | arg2 | arg3 | twCfg | twTimeout | rbCfg => simp only [State.writeReg, State.unlessBusy]; split <;> rfl
  | _ => rfl

theorem writeReg_rb (s : State) (w : Word) {r : Reg} (h1 : r ≠ .ctrl) (h2 : r ≠ .rbCfg) : (s.writeReg w r).rb = s.rb := by
  cases r with
  | ctrl => exact absurd rfl h1
  | rbCfg => exact absurd rfl h2
  | evtPop => simp only [State.writeReg, State.popEvent]; split <;> rfl
  | cmd => simp only [State.writeReg, State.writeCmd]; split <;> rfl
  | arg0 | arg1 | arg2 | arg3 | twCfg | twTimeout => simp only [State.writeReg, State.unlessBusy]; split <;> rfl
  | _ => rfl

theorem regAt_rbCfg (a : Nat) (h : regAt a = some .rbCfg) : a = 0x090 := by
  unfold regAt at h
  split at h <;> simp only [Option.some.injEq, reduceCtorEq] at h
  rfl

/-! ### Every step keeps the bounds -/

theorem bounds_reset (s : State) (m : Memory) : Bounds (s.resetKeeping m) where
  queues := ⟨Nat.zero_le _, Nat.zero_le _, List.forall_mem_nil _⟩
  latch := fun _ h => by cases h
  err := ⟨by simp [State.resetKeeping, State.reset], by simp [State.resetKeeping, State.reset]⟩

theorem writeReg_keeps_bounds {s : State} (hs : Bounds s) (w : Word) (r : Reg) : Bounds (s.writeReg w r) := by
  by_cases hr : r = .ctrl
  · subst hr
    simp only [State.writeReg]
    split <;> [exact bounds_reset s s.mem; exact hs]
  · exact (writeReg_publishes_nothing s w hr).bounds hs (writeReg_evt_bound s w r hs.queues.evtBound)

theorem hostWrite_keeps_bounds {s : State} (hs : Bounds s) (size : AccessSize) (a : Nat) (w : Word) :
    Bounds (s.hostWrite size a w) := by
  obtain hw | hw | ⟨bs, -, -, -, hw⟩ | ⟨r, -, -, hw⟩ := hostWrite_cases s size a w <;> rw [hw]
  · exact hs
  · exact ⟨{ hs.queues with }, hs.latch, hs.err⟩
  · exact ⟨{ hs.queues with }, hs.latch, hs.err⟩
  · exact writeReg_keeps_bounds hs w r

theorem hostRead_keeps_bounds {s : State} (hs : Bounds s) (size : AccessSize) (a : Nat) : Bounds (s.hostRead size a) := by
  obtain ⟨v, hr⟩ | hr := hostRead_cases s size a <;> rw [hr] <;> exact ⟨{ hs.queues with }, hs.latch, hs.err⟩

/-- Settles O58: each agent's operations keep the bounds, and so does the arbiter after them. -/
theorem stepKeepsBounds : Obligations.StepKeepsBounds := by
  intro s t hrb hq hl he h
  have hs : ∀ rest, Bounds { s with trace := rest } := fun rest => ⟨{ hq with }, hl, he⟩
  suffices ht : Bounds t from ⟨ht.queues, ht.latch, ht.err⟩
  obtain ⟨rest, hc, -⟩ | ⟨x, rest, -, ⟨size, a, -, rfl⟩ | ⟨size, a, w, -, rfl⟩ | ⟨-, rfl⟩ | ⟨-, rfl⟩⟩ :=
    step_next_cases s t h
  · exact complete_keeps_bounds (s := { s with trace := rest }) hrb (hs rest) hc
  · exact hostRead_keeps_bounds (hs rest) size a.toNat
  · exact hostWrite_keeps_bounds (hs rest) size a.toNat w
  · exact Bounds.arbitrate ⟨{ hq with }, hl, he⟩
  · exact bounds_reset _ _

/-! ### Every step keeps the form of the buffers -/

/-- Bytes written inside the two buffers keep their form. -/
theorem MemInv.setBytes {s u : State} {a : Nat} {bs : List Byte} (hs : MemInv s) (hlo : 0x400 ≤ a) (hhi : a + bs.length ≤ 0xC00)
    (hu : u.mem = s.mem.setBytes a bs) : MemInv u :=
  ⟨hu ▸ Memory.setBytes_wf _ _ _ hs.1, hu ▸ Memory.setBytes_inBuffers _ _ _ hlo hhi hs.2⟩

theorem MemInv.of_mem_eq {s u : State} (hs : MemInv s) (hu : u.mem = s.mem) : MemInv u := by
  unfold MemInv
  rw [hu]
  exact hs

theorem CommandEffect.keeps_memInv {s u : State} {i : Instr} (h : CommandEffect s i u) (hq : QueueInv s) (hs : MemInv s) : MemInv u := by
  obtain hm | ⟨bs, hm, -, hfits⟩ := h.mem_cases
  · exact hs.of_mem_eq hm
  · have hlen : bs.length ≤ 1024 := hfits hq
    exact hs.setBytes (by decide) (by simp only [obufBase]; omega) hm

theorem exec_keeps_memInv {i : Instr} {s t : State} (h : exec i s = .next t) (hq : QueueInv s) (hs : MemInv s) : MemInv t := by
  obtain ⟨c, rfl⟩ | ⟨u, r, hu, rfl⟩ := exec_cases h
  · exact hs
  · exact hu.keeps_memInv hq hs

theorem complete_keeps_memInv {s t : State} (hq : QueueInv s) (hs : MemInv s) (h : complete s = .next t) : MemInv t := by
  obtain ⟨-, rfl⟩ | ⟨w, -, ⟨i, u, -, hx, rfl⟩ | ⟨e, -, rfl⟩⟩ := complete_next_cases s t h
  · exact hs
  · have hu : MemInv u := exec_keeps_memInv hx { hq with } hs
    exact hu
  · exact hs

theorem hostWrite_keeps_memInv {s : State} (hs : MemInv s) (size : AccessSize) (a : Nat) (w : Word) : MemInv (s.hostWrite size a w) := by
  obtain hw | hw | ⟨bs, -, hlo, hhi, hw⟩ | ⟨r, -, -, hw⟩ := hostWrite_cases s size a w <;> rw [hw]
  · exact hs
  · exact hs
  · exact hs.setBytes hlo (by omega) rfl
  · exact hs.of_mem_eq (writeReg_mem s w r)

/-- Settles O59: a completion writes OBUF at most, a host write IBUF at most, and a hardware reset lists nothing. -/
theorem stepKeepsMemoryForm : Obligations.StepKeepsMemoryForm := by
  intro s t hq hs h
  obtain ⟨rest, hc, -⟩ | ⟨x, rest, -, ⟨size, a, -, rfl⟩ | ⟨size, a, w, -, rfl⟩ | ⟨-, rfl⟩ | ⟨-, rfl⟩⟩ :=
    step_next_cases s t h
  · exact complete_keeps_memInv (s := { s with trace := rest }) { hq with } hs hc
  · obtain ⟨v, hr⟩ | hr := hostRead_cases { s with trace := rest } size a.toNat <;> rw [hr] <;> exact hs
  · exact hostWrite_keeps_memInv (s := { s with trace := rest }) hs size a.toNat w
  · exact hs
  · exact ⟨Memory.powerOn_wf s.mem, List.forall_mem_nil _⟩

/-! ### Only completions publish (20_memory.md R92) -/

/-- A host write other than one of CTRL publishes nothing, writes no byte of OBUF, and changes RB only by a write of RB_CFG. -/
theorem hostWrite_publishes_nothing (s : State) (size : AccessSize) (a : Nat) (w : Word) (ha : a ≠ 0x010) :
    SamePublished s (s.hostWrite size a w) ∧ (∀ b, 0x800 ≤ b → (s.hostWrite size a w).mem.byteAt b = s.mem.byteAt b) ∧
      (a ≠ 0x090 → (s.hostWrite size a w).rb = s.rb) := by
  obtain hw | hw | ⟨bs, -, -, hhi, hw⟩ | ⟨r, -, hr, hw⟩ := hostWrite_cases s size a w <;> rw [hw]
  · exact ⟨.refl s, fun _ _ => rfl, fun _ => rfl⟩
  · exact ⟨⟨rfl, rfl, rfl, rfl, rfl⟩, fun _ _ => rfl, fun _ => rfl⟩
  · exact ⟨⟨rfl, rfl, rfl, rfl, rfl⟩, fun b hb => s.mem.byteAt_setBytes_outside a b bs (.inr (by omega)), fun _ => rfl⟩
  · have hctrl : r ≠ .ctrl := fun he => ha (regAt_ctrl a (he ▸ hr))
    exact ⟨writeReg_publishes_nothing s w hctrl, fun _ _ => by rw [writeReg_mem],
      fun hne => writeReg_rb s w hctrl fun he => hne (regAt_rbCfg a (he ▸ hr))⟩

/-- Settles O60: a host access by its cases, and a tick by the frame of the arbiter. -/
theorem onlyCompletionsPublishResults : Obligations.OnlyCompletionsPublishResults := by
  intro s t x rest htr h hengine hreset hctrl
  rw [step, htr] at h
  cases x with
  | engine => exact absurd rfl hengine
  | hwReset => exact absurd rfl hreset
  | tick => cases h; exact ⟨rfl, rfl, rfl, rfl, rfl, fun _ _ => rfl, fun _ => rfl⟩
  | read size a =>
    cases h
    obtain ⟨v, hr⟩ | hr := hostRead_cases { s with trace := rest } size a.toNat <;> rw [hr] <;>
      exact ⟨rfl, rfl, rfl, rfl, rfl, fun _ _ => rfl, fun _ => rfl⟩
  | write size a w =>
    cases h
    have hne : ∀ c : BitVec 12, a ≠ c → a.toNat ≠ c.toNat := fun c => mt BitVec.eq_of_toNat_eq
    obtain ⟨⟨hres, hlatch, hdlv, herr, hcode⟩, hmem, hrb⟩ :=
      hostWrite_publishes_nothing { s with trace := rest } size a.toNat w (hne 0x010#12 fun he => hctrl size w (by rw [he]))
    exact ⟨hres, hlatch, hdlv, herr, hcode, hmem, fun hcfg => hrb (hne 0x090#12 fun he => hcfg size w (by rw [he]))⟩

end Sys2Proof.Machine
end

section
/-! SUPPORT. What an encoder writes a decoder reads back (40_codec.md R147, R155): the parse of the bytes of a frame and of a segment. -/

namespace Sys2Proof.Machine

/-- The datagram in IBUF where OBUF, just written, was copied to it. -/
theorem State.ibuf_of_copied {m : Memory} {u : State} {bs : List Byte} {n : Nat} (hn : bs.length = n)
    (h : u.mem.bytes ibufBase n = (m.setBytes obufBase bs).bytes obufBase n) : u.ibuf n = bs := by
  subst hn
  exact h.trans (m.bytes_setBytes obufBase bs)

/-! ### A frame (R147) -/

/-- The parse of a frame: its fields, and whether its digest is that of its head and its payload. -/
theorem parsedFrame_frameBytes (t : Byte) (q d : Word) (p : List Byte) :
    parsedFrame (frameBytes t q d p) =
      { fmt := .frame, ok := d == digestFn (frameCover t q p), type := t, seq := q, ack := 0#32, flags := 0#8, window := 0#16,
        reserved := 0#16, payload := p } := by
  have hseq : rdBe32 (frameBytes t q d p) 1 = q := be32_join q
  have hrdg : rdBe32 (frameBytes t q d p) 5 = d := be32_join d
  rw [parsedFrame, hseq, hrdg]
  rfl

/-- What DEC_FRAME leaves where IBUF holds b. -/
theorem exec_decFrame_datagram {u : State} {b : List Byte} {n : Nat} (hlo : 9 ≤ n) (hhi : n ≤ 1024) (hb : u.ibuf n = b) :
    ∃ v, exec (.decFrame n) u = .next v ∧ v.res = frameResults b ∧ v.latch = some (parsedFrame b) ∧
      v.mem.bytes obufBase (b.drop 9).length = b.drop 9 :=
  hb ▸ ⟨_, exec_decFrame_parses hlo hhi u, rfl, rfl, u.mem.bytes_setBytes obufBase _⟩

/-- The results of DEC_FRAME over a frame. -/
theorem frameResults_frameBytes (t : Byte) (q d : Word) (p : List Byte) :
    frameResults (frameBytes t q d p) =
      { r0 := verdict (d == digestFn (frameCover t q p)), r1 := t.setWidth 32, r2 := q, r3 := BitVec.ofNat 32 p.length, r4 := d,
        r5 := digestFn (frameCover t q p) } := by
  have hseq : rdBe32 (frameBytes t q d p) 1 = q := be32_join q
  have hrdg : rdBe32 (frameBytes t q d p) 5 = d := be32_join d
  rw [frameResults, parsedFrame_frameBytes, hseq, hrdg, frameBytes_length, Nat.add_sub_cancel_left]
  rfl

/-- Settles O14: DEC_FRAME parses the frame ENC_FRAME wrote, whose digest is the one it computes. -/
theorem frameSurvivesTheWire : Obligations.FrameSurvivesTheWire := by
  intro s len hlen
  refine ⟨_, exec_encFrame_eq hlen s, fun u hu => ?_⟩
  rw [State.succeed_mem, State.putObuf_mem] at hu
  have hb := State.ibuf_of_copied (by rw [frameBytes_length, State.ibuf_length]) hu
  obtain ⟨v, hv, hres, hlatch, hout⟩ := exec_decFrame_datagram (Nat.le_add_right 9 len) (by omega) hb
  have hok : (s.encFrameDigest len == digestFn (frameCover s.argType s.argSeq (s.ibuf len))) = true := beq_self_eq_true _
  have hdrop : (frameBytes s.argType s.argSeq (s.encFrameDigest len) (s.ibuf len)).drop 9 = s.ibuf len := rfl
  rw [frameResults_frameBytes, hok, State.ibuf_length] at hres
  rw [parsedFrame_frameBytes, hok] at hlatch
  rw [hdrop, State.ibuf_length] at hout
  exact ⟨v, _, hv, by rw [hres]; rfl, by rw [hres]; rfl, by rw [hres]; rfl, by rw [hres], hout, hlatch, rfl, rfl, rfl, rfl, rfl⟩

/-! ### A segment (R155) -/

/-- A segment: its 17 header bytes, its digest and its payload (30_encoding.md R110). -/
def segBytes (h17 : List Byte) (d : Word) (p : List Byte) : List Byte := h17 ++ be32 d ++ p

theorem segBytes_length {h17 : List Byte} (h : h17.length = 17) (d : Word) (p : List Byte) :
    (segBytes h17 d p).length = 21 + p.length := by
  rw [segBytes, List.length_append, List.length_append, h, be32_length]

/-- The header fields of a segment at their places. -/
theorem segBytes_fields (sp dp : Half) (q a : Word) (fl : Byte) (w rv : Half) (d : Word) (p : List Byte) :
    rdBe16 (segBytes (segHead sp dp q a fl w rv) d p) 0 = sp ∧ rdBe16 (segBytes (segHead sp dp q a fl w rv) d p) 2 = dp ∧
    rdBe32 (segBytes (segHead sp dp q a fl w rv) d p) 4 = q ∧ rdBe32 (segBytes (segHead sp dp q a fl w rv) d p) 8 = a ∧
    byteOf (segBytes (segHead sp dp q a fl w rv) d p) 12 = fl ∧ rdBe16 (segBytes (segHead sp dp q a fl w rv) d p) 13 = w ∧
    rdBe16 (segBytes (segHead sp dp q a fl w rv) d p) 15 = rv ∧ rdBe32 (segBytes (segHead sp dp q a fl w rv) d p) 17 = d :=
  ⟨be16_join sp, be16_join dp, be32_join q, be32_join a, rfl, be16_join w, be16_join rv, be32_join d⟩

/-- The parse of a segment: its fields, and whether its digest is that of its header and its payload. -/
theorem parsedSeg_segBytes (sp dp : Half) (q a : Word) (fl : Byte) (w rv : Half) (d : Word) (p : List Byte) :
    parsedSeg (segBytes (segHead sp dp q a fl w rv) d p) =
      { fmt := .seg, ok := d == digestFn (segHead sp dp q a fl w rv ++ p), type := 0#8, seq := q, ack := a, flags := fl, window := w,
        reserved := rv, payload := p } := by
  obtain ⟨-, -, hseq, hack, hfl, hw, hrv, hrdg⟩ := segBytes_fields sp dp q a fl w rv d p
  rw [parsedSeg, hseq, hack, hfl, hw, hrv, hrdg]
  rfl

/-- The results of DEC_SEG over a segment. -/
theorem segResults_segBytes (sp dp : Half) (q a : Word) (fl : Byte) (w rv : Half) (d : Word) (p : List Byte) :
    segResults (segBytes (segHead sp dp q a fl w rv) d p) =
      { r0 := verdict (d == digestFn (segHead sp dp q a fl w rv ++ p)), r1 := dp ++ sp, r2 := q, r3 := a,
        r4 := (w ++ fl).setWidth 32, r5 := rv ++ BitVec.ofNat 16 p.length } := by
  obtain ⟨hsp, hdp, hseq, hack, hfl, hw, hrv, -⟩ := segBytes_fields sp dp q a fl w rv d p
  rw [segResults, parsedSeg_segBytes, hsp, hdp, hseq, hack, hfl, hw, hrv, segBytes_length rfl, Nat.add_sub_cancel_left]

/-- What DEC_SEG leaves where IBUF holds b. -/
theorem exec_decSeg_datagram {u : State} {b : List Byte} {n : Nat} (hlo : 21 ≤ n) (hhi : n ≤ 1024) (hb : u.ibuf n = b) :
    ∃ v, exec (.decSeg n) u = .next v ∧ v.res = segResults b ∧ v.latch = some (parsedSeg b) :=
  hb ▸ ⟨_, exec_decSeg_parses hlo hhi u, rfl, rfl⟩

/-- What DEC_SEG leaves of the segment that ENC_SEG wrote over s. -/
theorem exec_decSeg_of_encSeg {s u : State} {len : Nat} (hlen : len ≤ 1003)
    (hu : u.ibuf (21 + len) = segBytes s.argSegHead (s.encSegDigest len) (s.ibuf len)) :
    ∃ v, exec (.decSeg (21 + len)) u = .next v ∧
      v.res = { r0 := 0#32, r1 := s.argDstPort ++ s.argSrcPort, r2 := s.argSeq, r3 := s.argAck,
                r4 := (s.argWindow ++ s.argFlags).setWidth 32, r5 := 0#16 ++ BitVec.ofNat 16 len } ∧
      v.latch = some { fmt := .seg, ok := true, type := 0#8, seq := s.argSeq, ack := s.argAck, flags := s.argFlags,
                       window := s.argWindow, reserved := 0#16, payload := s.ibuf len } := by
  obtain ⟨v, hv, hres, hlatch⟩ := exec_decSeg_datagram (Nat.le_add_right 21 len) (by omega) hu
  have hok : (s.encSegDigest len == digestFn (s.argSegHead ++ s.ibuf len)) = true := beq_self_eq_true _
  rw [State.argSegHead] at hok hres hlatch
  rw [segResults_segBytes, hok, State.ibuf_length] at hres
  rw [parsedSeg_segBytes, hok] at hlatch
  exact ⟨v, hv, hres, hlatch⟩

/-- Settles O15: DEC_SEG parses the segment ENC_SEG wrote, whose digest is the one it computes. -/
theorem segmentSurvivesTheWire : Obligations.SegmentSurvivesTheWire := by
  intro s len hlen
  have hwrite : exec (.encSeg len) s = done (res2 (BitVec.ofNat 32 (21 + len)) (s.encSegDigest len))
      (s.putObuf (segBytes s.argSegHead (s.encSegDigest len) (s.ibuf len))) := exec_encSeg_eq hlen s
  refine ⟨_, hwrite, fun u hu => ?_⟩
  have hbytes : (segBytes s.argSegHead (s.encSegDigest len) (s.ibuf len)).length = 21 + len := by
    rw [segBytes_length s.argSegHead_length, State.ibuf_length]
  rw [State.succeed_mem, State.putObuf_mem] at hu
  obtain ⟨v, hv, hres, hlatch⟩ := exec_decSeg_of_encSeg hlen (State.ibuf_of_copied hbytes hu)
  have hports : s.argDstPort ++ s.argSrcPort = s.args.arg0 :=
    (BitVec.extractLsb'_append_extractLsb'_eq_extractLsb' rfl).trans (by simp)
  have hflags : s.argWindow ++ s.argFlags = s.args.arg3.extractLsb' 0 24 := BitVec.extractLsb'_append_extractLsb'_eq_extractLsb' rfl
  have hcount : 0#16 ++ BitVec.ofNat 16 len = BitVec.ofNat 32 len := by
    rw [half_append, ofNat16_setWidth len (by omega)]
    simp
  rw [hports, hflags, hcount] at hres
  exact ⟨v, _, hv, by rw [hres], by rw [hres], by rw [hres]; rfl, by rw [hres]; rfl, by rw [hres], by rw [hres], hlatch,
    rfl, rfl, rfl, rfl⟩

end Sys2Proof.Machine
end

section
/-! SUPPORT. RB_PUSH branch by branch: the checks before the mode's rule, and the receive rules of GBN, SR and CONN
(41_reorder.md R180-R199). -/

namespace Sys2Proof.Machine

/-! ### The checks before the mode's rule (R180) -/

theorem decodesR_rbPush : DecodesR 0x20#8 .rbPush := decodesR_of_decode fun w h => by simp only [decode, h]

theorem exec_rbPush_off {s : State} (hm : s.rb.mode = .off) : exec .rbPush s = .next (s.failedWith 4#4) := if_pos hm

theorem exec_rbPush_nolatch {s : State} (hm : s.rb.mode ≠ .off) (hl : s.latch = none) :
    exec .rbPush s = .next (s.failedWith 6#4) := by
  rw [exec, execRbPush, if_neg hm, hl]
  rfl

theorem exec_rbPush_format {s : State} {l : Latch} (hm : s.rb.mode ≠ .off) (hl : s.latch = some l)
    (hf : fmtFits s.rb.mode l.fmt = false) : exec .rbPush s = .next (s.failedWith 4#4) := by
  simp only [exec, execRbPush, if_neg hm, hl, hf]
  rfl

theorem fmtFits_of_frame {m : Mode} {f : Fmt} (hm : m = .gbn ∨ m = .sr) : fmtFits m f = true ↔ f = .frame := by
  obtain rfl | rfl := hm <;> cases f <;> decide

theorem fmtFits_of_conn {f : Fmt} : fmtFits .conn f = true ↔ f = .seg := by
  cases f <;> decide

/-- Settles O17, check by check. -/
theorem rbPushChecksInOrder : Obligations.RbPushChecksInOrder := by
  refine ⟨decodesR_rbPush, fun s => ⟨exec_rbPush_off, exec_rbPush_nolatch, fun l hl hm hf => ?_, fun l hl hm hf => ?_⟩⟩
  · have hon : s.rb.mode ≠ .off := by obtain h | h := hm <;> simp [h]
    exact exec_rbPush_format hon hl (Bool.eq_false_iff.mpr (mt (fmtFits_of_frame hm).mp hf))
  · exact exec_rbPush_format (by simp [hm]) hl (by rw [hm]; exact Bool.eq_false_iff.mpr (mt fmtFits_of_conn.mp hf))

/-- RB_PUSH in GBN commits the verdict of the GBN rule. -/
theorem exec_rbPush_gbn {s : State} {l : Latch} (hm : s.rb.mode = .gbn) (hl : s.latch = some l) (hf : l.fmt = .frame) :
    exec .rbPush s = pushVerdict (gbnRule (l.type == Config.typeData) s.rb l) s := by
  rw [exec_rbPush_eq (by simp [hm]) hl ((fmtFits_of_frame (.inl hm)).mpr hf), modeRule, hm]

/-- RB_PUSH in SR commits the verdict of the SR rule. -/
theorem exec_rbPush_sr {s : State} {l : Latch} (hm : s.rb.mode = .sr) (hl : s.latch = some l) (hf : l.fmt = .frame) :
    exec .rbPush s = pushVerdict (srRule (l.type == Config.typeData) s.rb l) s := by
  rw [exec_rbPush_eq (by simp [hm]) hl ((fmtFits_of_frame (.inr hm)).mpr hf), modeRule, hm]

/-- RB_PUSH in CONN commits the verdict of the Connection rule. -/
theorem exec_rbPush_conn {s : State} {l : Latch} (hm : s.rb.mode = .conn) (hl : s.latch = some l) (hf : l.fmt = .seg) :
    exec .rbPush s = pushVerdict (connRule s.rb l) s := by
  rw [exec_rbPush_eq (by simp [hm]) hl (by rw [hm]; exact fmtFits_of_conn.mpr hf), modeRule, hm]

/-! ### GBN (R183) -/

section Gbn

variable {rb : Reorder} {l : Latch}

theorem gbnRule_corrupt (d : Bool) (hok : l.ok = false) : gbnRule d rb l = rb.only .corrupt (some (rb.exp - 1#32)) := by
  simp [gbnRule, hok]

theorem gbnRule_notData (hok : l.ok = true) : gbnRule false rb l = rb.only .notData none := by
  simp [gbnRule, hok]

theorem gbnRule_discarded (hok : l.ok = true) (hs : l.seq ≠ rb.exp) :
    gbnRule true rb l = rb.only .discarded (some (rb.exp - 1#32)) := by
  simp [gbnRule, hok, hs]

theorem gbnRule_oversize (hok : l.ok = true) (hs : l.seq = rb.exp) (hlen : Config.maxPayload < l.payload.length) :
    gbnRule true rb l = rb.only .oversize none := by
  simp [gbnRule, hok, hs, hlen]

theorem gbnRule_delivered (hok : l.ok = true) (hs : l.seq = rb.exp) (hlen : l.payload.length ≤ Config.maxPayload) :
    gbnRule true rb l =
      { act := .delivered, ack := some rb.exp, deliver := [{ seq := rb.exp, payload := l.payload }],
        rb := { rb with exp := rb.exp + 1#32 } } := by
  simp [gbnRule, hok, hs, Nat.not_lt.mpr hlen]

end Gbn

/-- Settles O18, branch by branch. -/
theorem gbnReceiveRule : Obligations.GbnReceiveRule := by
  intro s l hm hl hf e
  rw [exec_rbPush_gbn hm hl hf]
  refine ⟨fun hdlv hok => ?_, fun hdlv hok ht => ?_, fun hdlv hok ht hs => ?_, fun hdlv hok ht hs hlen => ?_, fun hok ht hs hlen => ?_⟩
  · rw [gbnRule_corrupt _ hok]
    exact pushVerdict_only _ _ _ s hdlv
  · rw [beq_eq_false_iff_ne.mpr ht, gbnRule_notData hok]
    exact pushVerdict_only _ _ _ s hdlv
  · rw [beq_iff_eq.mpr ht, gbnRule_discarded hok hs]
    exact pushVerdict_only _ _ _ s hdlv
  · rw [beq_iff_eq.mpr ht, gbnRule_oversize hok hs hlen]
    exact pushVerdict_only _ _ _ s hdlv
  · rw [beq_iff_eq.mpr ht, gbnRule_delivered hok hs hlen]
    exact ⟨fun hfull => pushVerdict_full _ s hfull, fun hroom => pushVerdict_fits _ s hroom⟩

/-! ### A slot for the arrival (R186, R193) -/

theorem Reorder.buffer_free {rb : Reorder} {j : Nat} (hj : LowestFree rb.slots j) (l : Latch) (k k' : Option Word) :
    rb.buffer l k k' =
      { act := .buffered, ack := k, deliver := [],
        rb := { rb with slots := rb.slots.set j (some { seq := l.seq, payload := l.payload }) } } := by
  rw [Reorder.buffer, (firstFree_eq_some _ _).mpr hj]

theorem Reorder.buffer_full {rb : Reorder} (h : ∀ j : Nat, rb.slots[j]? ≠ some none) (l : Latch) (k k' : Option Word) :
    rb.buffer l k k' = rb.only .noSlot k' := by
  rw [Reorder.buffer, (firstFree_eq_none _).mpr h]

/-! ### SR (R186) -/

section Sr

variable {rb : Reorder} {l : Latch}

theorem srRule_corrupt (d : Bool) (hok : l.ok = false) : srRule d rb l = rb.only .corrupt none := by
  simp [srRule, hok]

theorem srRule_notData (hok : l.ok = true) : srRule false rb l = rb.only .notData none := by
  simp [srRule, hok]

theorem srRule_oversize (hok : l.ok = true) (hin : (dist rb.exp l.seq).toNat < rb.n.toNat) (hlen : Config.maxPayload < l.payload.length) :
    srRule true rb l = rb.only .oversize none := by
  simp only [srRule, hok, inwin, hin, hlen]
  rfl

/-- In the window, out of order and not too long: DUPLICATE where a slot holds the sequence, and buffered otherwise. -/
theorem srRule_outOfOrder (hok : l.ok = true) (hin : (dist rb.exp l.seq).toNat < rb.n.toNat)
    (hlen : l.payload.length ≤ Config.maxPayload) (hne : (dist rb.exp l.seq).toNat ≠ 0) :
    srRule true rb l =
      if (findSeq l.seq rb.slots).isSome then rb.only .duplicate (some l.seq) else rb.buffer l (some l.seq) none := by
  have hs : l.seq ≠ rb.exp := fun he => hne (by rw [he, dist_self]; rfl)
  simp [srRule, hok, inwin, hin, Nat.not_lt.mpr hlen, hs]

theorem srRule_behind (hok : l.ok = true) (hout : rb.n.toNat ≤ (dist rb.exp l.seq).toNat) (hb : 2 ^ 31 ≤ (dist rb.exp l.seq).toNat) :
    srRule true rb l = rb.only .duplicate (some l.seq) := by
  simp only [srRule, hok, inwin, Nat.not_lt.mpr hout, behind, hb]
  rfl

theorem srRule_outOfWindow (hok : l.ok = true) (hout : rb.n.toNat ≤ (dist rb.exp l.seq).toNat)
    (hb : (dist rb.exp l.seq).toNat < 2 ^ 31) : srRule true rb l = rb.only .outOfWindow none := by
  simp only [srRule, hok, inwin, Nat.not_lt.mpr hout, behind, Nat.not_le.mpr hb]
  rfl

end Sr

/-- Settles O19, branch by branch. -/
theorem srReceiveRuleWithoutDelivery : Obligations.SrReceiveRuleWithoutDelivery := by
  intro s l hm hl hf hdlv e d n
  rw [exec_rbPush_sr hm hl hf]
  refine ⟨fun hok => ?_, fun hok ht => ?_, fun hok ht => ?_⟩
  · rw [srRule_corrupt _ hok]
    exact pushVerdict_only _ _ _ s hdlv
  · rw [beq_eq_false_iff_ne.mpr ht, srRule_notData hok]
    exact pushVerdict_only _ _ _ s hdlv
  rw [beq_iff_eq.mpr ht]
  refine ⟨fun hin hlen => ?_, fun hin hlen hne hheld => ?_, fun hin hlen hne hnew j hj => ?_, fun hin hlen hne hnew hfull => ?_,
    fun hout hb => ?_, fun hout hb => ?_⟩
  · rw [srRule_oversize hok hin hlen]
    exact pushVerdict_only _ _ _ s hdlv
  · rw [srRule_outOfOrder hok hin hlen hne, if_pos ((findSeq_isSome _ _).mpr hheld)]
    exact pushVerdict_only _ _ _ s hdlv
  · rw [srRule_outOfOrder hok hin hlen hne, (findSeq_eq_none _ _).mpr hnew, if_neg (by simp), Reorder.buffer_free hj]
    exact pushVerdict_fits _ s hdlv
  · rw [srRule_outOfOrder hok hin hlen hne, (findSeq_eq_none _ _).mpr hnew, if_neg (by simp), Reorder.buffer_full hfull]
    exact pushVerdict_only _ _ _ s hdlv
  · rw [srRule_behind hok hout hb]
    exact pushVerdict_only _ _ _ s hdlv
  · rw [srRule_outOfWindow hok hout hb]
    exact pushVerdict_only _ _ _ s hdlv

/-! ### CONN without delivery (R193) -/

section Conn

variable {rb : Reorder} {l : Latch}

theorem connRule_corrupt (hok : l.ok = false) : connRule rb l = rb.only .corrupt none := by
  simp [connRule, hok]

theorem connRule_notData (hok : l.ok = true) (hp : l.payload = []) : connRule rb l = rb.only .notData none := by
  simp [connRule, hok, hp]

theorem connRule_oversize (hok : l.ok = true) (hlen : Config.maxPayload < l.payload.length) : connRule rb l = rb.only .oversize none := by
  have hp : l.payload.isEmpty = false := by
    rw [List.isEmpty_eq_false_iff]
    rintro he
    simp [he] at hlen
  simp only [connRule, hok, hp, hlen]
  rfl

/-- A segment ahead of the expected byte: a repeat at a buffered sequence replaces its payload, any other is buffered. -/
theorem connRule_ahead (hok : l.ok = true) (hp : l.payload ≠ []) (hlen : l.payload.length ≤ Config.maxPayload)
    (hpos : 0 < (dist rb.exp l.seq).toNat) (hfar : (dist rb.exp l.seq).toNat < 2 ^ 31) :
    connRule rb l =
      if (findSeq l.seq rb.slots).isSome then
        { act := .buffered, ack := some rb.exp, deliver := [], rb := { rb with slots := replacePayload l.seq l.payload rb.slots } }
      else rb.buffer l (some rb.exp) (some rb.exp) := by
  have hs : l.seq ≠ rb.exp := fun he => by simp [he] at hpos
  have ha : ahead l.seq rb.exp = true := decide_eq_true ⟨hpos, hfar⟩
  simp [connRule, hok, hp, Nat.not_lt.mpr hlen, hs, ha]

theorem connRule_behind (hok : l.ok = true) (hp : l.payload ≠ []) (hlen : l.payload.length ≤ Config.maxPayload)
    (hb : 2 ^ 31 ≤ (dist rb.exp l.seq).toNat) : connRule rb l = rb.only .duplicate (some rb.exp) := by
  have hs : l.seq ≠ rb.exp := fun he => by simp [he] at hb
  have ha : ahead l.seq rb.exp = false := decide_eq_false fun h => absurd h.2 (Nat.not_lt.mpr hb)
  simp [connRule, hok, hp, Nat.not_lt.mpr hlen, hs, ha]

end Conn

/-- Settles O22, branch by branch. -/
theorem connReceiveRuleWithoutDelivery : Obligations.ConnReceiveRuleWithoutDelivery := by
  intro s l hm hl hf hdlv e d
  rw [exec_rbPush_conn hm hl hf]
  refine ⟨fun hok => ?_, fun hok hp => ?_, fun hok hlen => ?_, fun hok hp hlen => ⟨fun hpos hfar j r hj hr hlow => ?_,
    fun hpos hfar hnew j hj => ?_, fun hpos hfar hnew hfull => ?_, fun hb => ?_⟩⟩
  · rw [connRule_corrupt hok]
    exact pushVerdict_only _ _ _ s hdlv
  · rw [connRule_notData hok hp]
    exact pushVerdict_only _ _ _ s hdlv
  · rw [connRule_oversize hok hlen]
    exact pushVerdict_only _ _ _ s hdlv
  · have hheld : ∃ r ∈ s.rb.slots.reduceOption, r.seq = l.seq := ⟨r, (mem_units_iff_getElem? _ _).mpr ⟨j, hj⟩, hr⟩
    rw [connRule_ahead hok hp hlen hpos hfar, if_pos ((findSeq_isSome _ _).mpr hheld), replacePayload_eq_set _ _ _ j r hj hr hlow]
    exact pushVerdict_fits _ s hdlv
  · rw [connRule_ahead hok hp hlen hpos hfar, (findSeq_eq_none _ _).mpr hnew, if_neg (by simp), Reorder.buffer_free hj]
    exact pushVerdict_fits _ s hdlv
  · rw [connRule_ahead hok hp hlen hpos hfar, (findSeq_eq_none _ _).mpr hnew, if_neg (by simp), Reorder.buffer_full hfull]
    exact pushVerdict_only _ _ _ s hdlv
  · rw [connRule_behind hok hp hlen hb]
    exact pushVerdict_only _ _ _ s hdlv

end Sys2Proof.Machine
end

section
/-! SUPPORT. A Connection segment at the expected byte (41_reorder.md R193, R195, R201): what it releases, over an RB that keeps its
invariant. -/

namespace Sys2Proof.Machine

/-- The CONN drain ends past every entry it delivers, and a bounded number of bytes from where it began. -/
theorem connDrain_end_after (slots : List (Option RbSlot)) (hne : ∀ r ∈ slots.reduceOption, r.payload ≠ [])
    (hlen : ∀ r ∈ slots.reduceOption, r.payload.length ≤ Config.maxPayload) (n : Nat) (hn : n ≤ Config.robSlots) (x : Word) :
    (dist x (connDrain slots n x).2).toNat ≤ n * Config.maxPayload ∧
      ∀ y ∈ seqsOf (connDrain slots n x).1, (dist x y).toNat < (dist x (connDrain slots n x).2).toNat := by
  induction n generalizing x with
  | zero => simp [connDrain, seqsOf]
  | succ n ih =>
    simp only [connDrain]
    split
    · simp [seqsOf]
    · next r hf =>
      have hr := (findSeq_mem _ _ _ hf).1
      have hpos : 0 < r.payload.length := List.length_pos_iff.mpr (hne r hr)
      have hmax : r.payload.length ≤ 1003 := hlen r hr
      obtain ⟨hfar, hafter⟩ := ih (by omega) (afterPayload x r.payload)
      simp only [Config.maxPayload, Config.robSlots] at hfar hn ⊢
      generalize (connDrain slots n (afterPayload x r.payload)).2 = e at *
      have hend : (dist x e).toNat = r.payload.length + (dist (afterPayload x r.payload) e).toNat := by
        unfold dist afterPayload at *; bv_omega
      refine ⟨by omega, fun y hy => ?_⟩
      obtain rfl | hy := List.mem_cons.mp hy
      · rw [dist_self]
        exact hend ▸ Nat.lt_of_lt_of_le hpos (Nat.le_add_right _ _)
      · have hlt := hafter y hy
        rw [hend]
        unfold dist afterPayload at *; bv_omega

/-- The buffered segments that an arrival at the expected byte releases, and the byte after the last of them. -/
def Reorder.connReleased (rb : Reorder) (l : Latch) : List DlvEntry × Word :=
  connDrain rb.slots rb.slots.length (afterPayload l.seq l.payload)

/-- No slot holds the byte after the released segments: a slot left lies elsewhere, and a slot released lies before it. -/
theorem RbInv.seq_ne_connReleased_end {rb : Reorder} (hrb : RbInv rb) (hm : rb.mode = .conn) (l : Latch) {r : RbSlot}
    (hr : r ∈ rb.units) : r.seq ≠ (rb.connReleased l).2 := by
  by_cases hin : r.seq ∈ seqsOf (rb.connReleased l).1
  · have hlt := (connDrain_end_after rb.slots (hrb.connPayload hm) hrb.payloadBound _ hrb.slotCount.le
      (afterPayload l.seq l.payload)).2 _ hin
    exact fun he => absurd (congrArg (fun y => (dist (afterPayload l.seq l.payload) y).toNat) he) (Nat.ne_of_lt hlt)
  · exact connDrain_end_not_left hrb hm _ r hr hin

/-- What is delivered: the arriving segment, then those it releases. -/
def Reorder.connDelivery (rb : Reorder) (l : Latch) : List DlvEntry := { seq := l.seq, payload := l.payload } :: (rb.connReleased l).1

/-- Each entry after the first starts at the byte after the one before it, and was buffered. -/
theorem Reorder.connDelivery_contiguous (rb : Reorder) (l : Latch) {k : Nat} {e e' : DlvEntry} (he : (rb.connDelivery l)[k]? = some e)
    (he' : (rb.connDelivery l)[k + 1]? = some e') :
    e'.seq = afterPayload e.seq e.payload ∧ ({ seq := e'.seq, payload := e'.payload } : RbSlot) ∈ rb.units := by
  obtain ⟨hhead, -, -, hheld, hnext, -, -⟩ := connDrain_spec rb.slots rb.slots.length (afterPayload l.seq l.payload)
  refine ⟨?_, hheld e' (List.mem_of_getElem? he')⟩
  cases k with
  | zero =>
    cases he
    exact hhead e' (List.head?_eq_getElem?.trans he')
  | succ k => exact hnext k e e' he he'

/-- The last entry delivered ends at the new expected byte. -/
theorem Reorder.connDelivery_last (rb : Reorder) (l : Latch) {e : DlvEntry} (he : (rb.connDelivery l).getLast? = some e) :
    (rb.connReleased l).2 = afterPayload e.seq e.payload := by
  obtain ⟨-, hlast, hnone, -, -, -, -⟩ := connDrain_spec rb.slots rb.slots.length (afterPayload l.seq l.payload)
  rw [Reorder.connDelivery, Reorder.connReleased] at he
  rw [Reorder.connReleased]
  generalize connDrain rb.slots rb.slots.length (afterPayload l.seq l.payload) = d at *
  cases hd : d.1 with
  | nil =>
    rw [hd] at he
    cases he
    exact hnone hd
  | cons f t =>
    rw [hd, List.getLast?_cons_cons, ← hd] at he
    exact hlast e he

/-- A slot that a delivery of d frees, where x is the new expected byte: one of d's, or one overtaken. -/
def connFrees (d : List DlvEntry) (x : Word) (r : RbSlot) : Bool := (seqsOf d).contains r.seq || behind r.seq x

theorem connFrees_eq (d : List DlvEntry) (x : Word) :
    connFrees d x = fun r => (seqsOf d).contains r.seq || behind r.seq x := rfl

theorem connFrees_cons {e : DlvEntry} (d : List DlvEntry) (x : Word) {r : RbSlot} (h : r.seq ≠ e.seq) :
    connFrees (e :: d) x r = connFrees d x r := by
  simp [connFrees, seqsOf, h]

/-- An arrival at the expected byte that fits delivers itself and what it releases, and frees the released and the overtaken slots. -/
theorem connRule_inOrder {rb : Reorder} {l : Latch} (hok : l.ok = true) (hp : l.payload ≠ [])
    (hlen : l.payload.length ≤ Config.maxPayload) (hseq : l.seq = rb.exp) :
    connRule rb l =
      { act := .delivered, ack := some (rb.connReleased l).2, deliver := rb.connDelivery l,
        rb := { rb with
          exp := (rb.connReleased l).2,
          slots := freeWhere (connFrees (rb.connReleased l).1 (rb.connReleased l).2) rb.slots } } := by
  simp [connRule, hok, hp, Nat.not_lt.mpr hlen, hseq, Reorder.connReleased, Reorder.connDelivery, connFrees_eq]

/-- Slots freed by two tests that agree on the valid slots. -/
theorem freeWhere_congr {p q : RbSlot → Bool} {slots : List (Option RbSlot)} (h : ∀ r ∈ slots.reduceOption, p r = q r) :
    freeWhere p slots = freeWhere q slots := by
  refine List.map_congr_left fun o ho => ?_
  cases o with
  | none => rfl
  | some r => simp [Option.filter_some, h r ((mem_units slots r).mpr ho)]

/-- In CONN no slot holds the expected byte. -/
theorem RbInv.seq_ne_exp_of_conn {rb : Reorder} (hrb : RbInv rb) (hm : rb.mode = .conn) {r : RbSlot} (hr : r ∈ rb.units) :
    r.seq ≠ rb.exp := by
  intro he
  have hahead := hrb.connAhead hm r hr
  simp [ahead, he] at hahead

/-- Settles O23: the entries after the first are the released ones, and no slot holds the arriving segment's own byte. -/
theorem connInOrderArrivalDrains : Obligations.ConnInOrderArrivalDrains := by
  refine ⟨fun a b => ⟨rfl, decide_eq_true_iff, decide_eq_true_iff⟩, fun s l hrb hm hl hf hok hp hlen hseq => ?_⟩
  rw [exec_rbPush_conn hm hl hf, connRule_inOrder hok hp hlen hseq]
  refine ⟨s.rb.connDelivery l, _, (s.rb.connReleased l).2, fun h => pushVerdict_full _ s h, fun h => pushVerdict_fits _ s h, rfl,
    fun k e e' he he' => s.rb.connDelivery_contiguous l he he', fun e he => s.rb.connDelivery_last l he,
    fun r hr => hrb.seq_ne_connReleased_end hm l hr, rfl, rfl, rfl, ?_⟩
  have hslots : freeWhere (connFrees (s.rb.connReleased l).1 (s.rb.connReleased l).2) s.rb.slots =
      freeWhere (connFrees (s.rb.connDelivery l) (s.rb.connReleased l).2) s.rb.slots :=
    freeWhere_congr fun r hr => (connFrees_cons _ _ (hseq ▸ hrb.seq_ne_exp_of_conn hm hr)).symm
  refine hslots.trans ?_
  simp only [freeWhere, connFrees, Bool.not_or]
  rfl

end Sys2Proof.Machine
end

section
/-! SUPPORT. TW_ADMIT and TW_ACK (42_txwindow_timers.md R221-R235): the checks before the mode's rule, the SR admission and both
acknowledgments. -/

namespace Sys2Proof.Machine

/-! ### The words (30_encoding.md R101) -/

theorem decodesR_twAdmit : DecodesR 0x31#8 .twAdmit := decodesR_of_decode fun w h => by simp only [decode, h]

theorem decodesR_twAck : DecodesR 0x32#8 .twAck := decodesR_of_decode fun w h => by simp only [decode, h]

/-! ### The mode, STOPPED and ABORTED checks (R221) -/

/-- Mode, then stopped, then aborted, as TW_ADMIT and TW_ACK check them. -/
theorem exec_twAdmit_or_twAck_refused {i : Instr} (hi : i = .twAdmit ∨ i = .twAck) (s : State) :
    (¬ s.tw.windowed → exec i s = .next (s.failedWith 4#4)) ∧
    (s.tw.windowed → s.tw.stopped = true → exec i s = .next (s.failedWith 10#4)) ∧
    (s.tw.windowed → s.tw.stopped = false → s.tw.abort = true → exec i s = .next (s.failedWith 9#4)) := by
  have hmode (hm : s.tw.windowed) : ¬ (s.tw.cfg.mode ≠ .gbn ∧ s.tw.cfg.mode ≠ .sr) := fun h => hm.elim h.1 h.2
  obtain rfl | rfl := hi
  · refine ⟨fun hm => if_pos (not_or.mp hm), fun hm hst => ?_, fun hm hst hab => ?_⟩
    · simp only [exec, execTwAdmit, if_neg (hmode hm), hst]
      rfl
    · simp only [exec, execTwAdmit, if_neg (hmode hm), hst, hab]
      rfl
  · refine ⟨fun hm => if_pos (not_or.mp hm), fun hm hst => ?_, fun hm hst hab => ?_⟩
    · simp only [exec, execTwAck, if_neg (hmode hm), hst]
      rfl
    · simp only [exec, execTwAck, if_neg (hmode hm), hst, hab]
      rfl

/-- Settles O28, command by command. -/
theorem twCommandLegality : Obligations.TwCommandLegality := by
  refine fun s => ⟨fun i hi => exec_twAdmit_or_twAck_refused hi s, exec_twArm_mode, exec_twArm_stopped, exec_twCancel_mode, ?_⟩
  rintro i (rfl | rfl | ⟨r, rfl⟩) <;> exact ⟨_, rfl, rfl⟩

/-! ### Admission in SR (R222, R224, R260) -/

theorem exec_twAdmit_sr_noSlot {s : State} (hm : s.tw.cfg.mode = .sr) (hst : s.tw.stopped = false) (hab : s.tw.abort = false)
    (hn : s.tw.outstanding.toNat < s.tw.cfg.n.toNat) (hfull : firstFree s.tw.slots = none) :
    exec .twAdmit s = .next (s.failedWith 5#4) := by
  simp [exec, execTwAdmit, hm, hst, hab, Nat.not_le.mpr hn, hfull, failed_eq, ErrCode.bits]

theorem exec_twAdmit_sr_slot {s : State} {j : Nat} (hm : s.tw.cfg.mode = .sr) (hst : s.tw.stopped = false) (hab : s.tw.abort = false)
    (hn : s.tw.outstanding.toNat < s.tw.cfg.n.toNat) (hj : firstFree s.tw.slots = some j) :
    exec .twAdmit s = if (s.tw.admitSr j).overSpan then .fault .liveSpan else .next (admitted j (s.tw.admitSr j) s) := by
  simp [exec, execTwAdmit, hm, hst, hab, Nat.not_le.mpr hn, hj]

/-- Over the span after an admission: some unit live before it lies 2^31 behind, since the new one lies right behind `next`. -/
theorem TxWindow.admitSr_overSpan {tw : TxWindow} {j : Nat} (hj : LowestFree tw.slots j) :
    (tw.admitSr j).overSpan = false ↔ ∀ t ∈ tw.units, (dist t.seq (tw.next + 1#32)).toNat < 2 ^ 31 := by
  have hperm : (tw.admitSr j).units.Perm ({ seq := tw.next, rem := tw.timeout, retries := 0#8 } :: tw.units) :=
    units_set_some_perm tw.slots j _ hj.1
  rw [TxWindow.overSpan_eq_false_iff]
  constructor
  · exact fun h t ht => h t (hperm.mem_iff.mpr (List.mem_cons_of_mem _ ht))
  · intro h t ht
    obtain rfl | hold := List.mem_cons.mp (hperm.mem_iff.mp ht)
    · rw [TxWindow.admitSr_next, dist_succ, dist_self]
      decide
    · exact h t hold

/-- Settles O30: the lowest free slot is the one `firstFree` finds. -/
theorem srAdmission : Obligations.SrAdmission := by
  refine ⟨decodesR_twAdmit, fun s hm hst hab => ⟨exec_twAdmit_full (.inr hm) hst hab, fun hn => ?_⟩⟩
  refine ⟨fun hfull => exec_twAdmit_sr_noSlot hm hst hab hn ((firstFree_eq_none _).mpr hfull), fun j hj => ?_⟩
  rw [exec_twAdmit_sr_slot hm hst hab hn ((firstFree_eq_some _ _).mpr hj)]
  refine ⟨fun hspan => ?_, fun ⟨t, ht, hfar⟩ => if_pos ?_⟩
  · rw [(TxWindow.admitSr_overSpan hj).mpr hspan]
    rfl
  · rw [← Bool.not_eq_false, TxWindow.admitSr_overSpan hj]
    exact fun h => absurd (h t ht) (Nat.not_lt.mpr hfar)

/-! ### Acknowledgment (R226-R229) -/

theorem exec_twAck_gbn {s : State} (hm : s.tw.cfg.mode = .gbn) (hst : s.tw.stopped = false) (hab : s.tw.abort = false) :
    exec .twAck s = acknowledged (s.tw.gbnAck s.argWord) s := by
  simp [exec, execTwAck, hm, hst, hab]

theorem exec_twAck_sr {s : State} (hm : s.tw.cfg.mode = .sr) (hst : s.tw.stopped = false) (hab : s.tw.abort = false) :
    exec .twAck s = acknowledged (s.tw.srAck Config.srSlide s.argWord) s := by
  simp [exec, execTwAck, hm, hst, hab]

/-- Settles O31: a k outside the window leaves TW as it was. -/
theorem gbnAcknowledgment : Obligations.GbnAcknowledgment := by
  intro s hm hst hab k b
  rw [exec_twAck_gbn hm hst hab]
  refine ⟨fun hin => ?_, fun hout => ?_⟩
  · have hack : s.tw.gbnAck s.argWord = _ := if_pos hin
    rw [hack]
    rfl
  · have hack : s.tw.gbnAck s.argWord = _ := if_neg (Nat.not_lt.mpr hout)
    rw [hack]
    rfl

/-- Settles O32: the invariant rules ABORT out in SR, and a second slot of the sequence k. -/
theorem srAcknowledgment : Obligations.SrAcknowledgment := by
  refine ⟨decodesR_twAck, fun s htw hm hst => ?_⟩
  intro k tw1 tw2
  have hab : s.tw.abort = false := by
    by_contra h
    simp [htw.abortGbn (by simpa using h)] at hm
  have htw2 : (s.tw.srAck Config.srSlide k).2 = tw2 := by
    rw [TxWindow.srAck, freeSeq_eq_map k _ htw.unitsDistinct]
    rfl
  have hnext : tw2.next = s.tw.next := by
    obtain ⟨b, he⟩ := s.tw.srAck_eq Config.srSlide k
    rw [← htw2, he]
  have hreleased : (s.tw.srAck Config.srSlide k).1 = if k ∈ s.tw.units.map fun t => t.seq then 1#32 else 0#32 :=
    if_congr (s.tw.hasSlot_iff k) rfl rfl
  have hexec : exec .twAck s = acknowledged (s.tw.srAck Config.srSlide k) s := exec_twAck_sr hm hst hab
  rw [hexec, acknowledged, htw2, hreleased, TxWindow.outstanding, hnext]
  rfl

end Sys2Proof.Machine
end

section
/-! SUPPORT. One step of one agent (10_state.md R53, 20_memory.md R91): the engine's turn, and the stimuli of the others. -/

namespace Sys2Proof.Machine

/-- The engine's turn comes by its stimulus, or with nothing laid up. -/
theorem step_engine {s : State} {rest : List Stimulus} (h : s.trace = .engine :: rest ∨ s.trace = [] ∧ rest = []) :
    step s = complete { s with trace := rest } := by
  obtain htr | ⟨htr, rfl⟩ := h
  · rw [step, htr]
    rfl
  · rw [step, htr]
    exact congrArg complete (by rw [← htr])

theorem complete_of_decode_ok {s : State} {w : Word} {i : Instr} (hw : s.pending = some w) (hd : decode w = .ok i) :
    complete s = thenArbitrate (exec i { s with pending := none }) := by
  simp only [complete, hw, runWord_of_decode_ok hd]

theorem complete_of_decode_error {s : State} {w : Word} {e : DecodeError} (hw : s.pending = some w) (hd : decode w = .error e) :
    complete s = .next (({ s with pending := none } : State).failedWith (errOfDecode e).bits).arbitrate := by
  simp only [complete, hw, runWord_of_decode_error hd]
  rfl

/-- Settles O5: a completion by what its word decodes to. -/
theorem stepRunsPendingCommand : Obligations.StepRunsPendingCommand := by
  refine ⟨fun s w i rest hw hd htr => ?_, fun s w rest hw htr => ⟨step_engine htr, fun hd => ?_, fun hd => ?_⟩,
    fun s t w i hd hx => ?_⟩
  · rw [step_engine htr, complete_of_decode_ok (s := { s with trace := rest }) hw hd]
    cases exec i { s with pending := none, trace := rest } <;> rfl
  · rw [step_engine htr, complete_of_decode_error (s := { s with trace := rest }) hw hd]
    rfl
  · rw [step_engine htr, complete_of_decode_error (s := { s with trace := rest }) hw hd]
    rfl
  · have hw : (s.withFetchWord 32 w.toNat).pending = some w := by
      rw [State.withFetchWord_pending, Nat.mod_eq_of_lt w.isLt, BitVec.ofNat_toNat, BitVec.setWidth_eq]
    rw [step_engine (.inl (s.withFetchWord_trace 32 w.toNat)),
      complete_of_decode_ok (s := { s.withFetchWord 32 w.toNat with trace := s.trace }) hw hd]
    exact congrArg thenArbitrate hx

theorem complete_idle {s : State} (hp : s.pending = none) : complete s = .next s := by
  rw [complete, hp]

/-- Settles O6, stimulus by stimulus. -/
theorem stepTakesOneStimulus : Obligations.StepTakesOneStimulus :=
  fun s rest => ⟨fun _ _ => rfl, fun _ _ _ => rfl, rfl, rfl, fun hp => complete_idle (s := { s with trace := rest }) hp⟩

end Sys2Proof.Machine
end

section
/-! SUPPORT. The registers at the host port (10_state.md R21-R46, 70_reset_and_hazards.md R340-R352): what a write stores with and without a
command pending, what the stored registers read as, and what the two resets leave. -/

namespace Sys2Proof.Machine

/-! ### Writes while a command is pending (R352) -/

theorem State.unlessBusy_idle {s : State} (hp : s.pending = none) (t : State) : s.unlessBusy t = t := by
  simp [State.unlessBusy, State.busy, hp]

theorem State.unlessBusy_busy {s : State} {c : Word} (hp : s.pending = some c) (t : State) :
    s.unlessBusy t = { s with accErr := true } := by
  simp [State.unlessBusy, State.busy, hp, State.refuse]

/-- The operand and configuration registers, which a pending command may still read. -/
def guardedRegs : List Reg := [.arg0, .arg1, .arg2, .arg3, .twCfg, .twTimeout, .rbCfg]

theorem State.writeReg_busy {s : State} {c : Word} (hp : s.pending = some c) (w : Word) {r : Reg} (hr : r ∈ guardedRegs) :
    s.writeReg w r = { s with accErr := true } := by
  cases r with
  | arg0 | arg1 | arg2 | arg3 | twCfg | twTimeout | rbCfg => exact State.unlessBusy_busy hp _
  | _ => simp [guardedRegs] at hr

theorem State.hostWrite_ibuf_busy {s : State} {c : Word} (hp : s.pending = some c) {size : AccessSize} {a : Nat} (hlo : 0x400 ≤ a)
    (hhi : a < 0x800) (hal : size = .word → a % 4 = 0) (w : Word) : s.hostWrite size a w = { s with accErr := true } := by
  cases size with
  | byte =>
    simp only [State.hostWrite, regionOf_ibuf hlo hhi]
    exact State.unlessBusy_busy hp _
  | word =>
    simp only [State.hostWrite, regionOf_ibuf hlo hhi, hal rfl, if_true]
    exact State.unlessBusy_busy hp _

/-- Settles O45: each guarded register goes through `unlessBusy`, and the others do not. -/
theorem writesWhileBusy : Obligations.WritesWhileBusy := by
  intro s c w hp
  refine ⟨fun a ha => ?_, fun size a hlo hhi hal => State.hostWrite_ibuf_busy hp hlo hhi hal w, ?_, 
    s.hostWrite_reg (r := .status) rfl w, s.hostWrite_reg (r := .irqEn) rfl w, s.hostWrite_reg (r := .ctrl) rfl w,
    s.hostWrite_reg (r := .evtPop) rfl w⟩
  · obtain ⟨r, hr, hg⟩ : ∃ r, regAt a = some r ∧ r ∈ guardedRegs := by
      revert a
      decide
    rw [s.hostWrite_reg hr, State.writeReg_busy hp w hg]
  · rw [s.hostWrite_reg (r := .cmd) rfl]
    simp [State.writeReg, State.writeCmd, State.busy, hp]

/-! ### What a write stores (R23-R34, R42-R46) -/

/-- A write of TW_CFG, field by field. -/
theorem TxWindow.configure_eq (cfg : TwCfg) (tw : TxWindow) :
    tw.configure cfg = { tw with
      cfg := cfg, base := 0#32, next := 0#32, shared := { armed := false, rem := 0#24 }, slots := List.replicate tw.slots.length none,
      retry := 0#8, ptag := 0#32, abort := false, stopped := false, est := { sa := 8000#32, sv := 0#32, rto := 1000#32 } } := by
  rw [← TxWindow.noSlots_eq]
  rfl

theorem Reorder.configure_eq (m : Mode) (n : BitVec 8) (rb : Reorder) :
    rb.configure m n = { mode := m, n := n, exp := 0#32, slots := List.replicate rb.slots.length none } := by
  rw [Reorder.configure, map_none]

theorem State.popEvent_cons {s : State} {e : Event} {r : List Event} (h : s.evt = e :: r) :
    s.popEvent = ({ s with evt := r } : State).arbitrate := by
  rw [State.popEvent, h]

/-- Settles O46, register by register. -/
theorem registerWrites : Obligations.RegisterWrites := by
  refine ⟨fun s w hp => ?_, fun s w => ⟨s.hostWrite_reg (r := .status) rfl w, fun he => ?_, fun e r he => ?_⟩⟩
  · have hreg {a : Nat} {r : Reg} (ha : regAt a = some r) (t : State) (ht : s.writeReg w r = s.unlessBusy t) :
        s.hostWrite .word a w = t := by rw [s.hostWrite_reg ha, ht, State.unlessBusy_idle hp]
    refine ⟨hreg rfl _ rfl, hreg rfl _ rfl, hreg rfl _ rfl, hreg rfl _ rfl, s.hostWrite_reg (r := .irqEn) rfl w, ?_, hreg rfl _ rfl,
      warlN (w.extractLsb' 8 8), warlN_toNat _, fun m hm => ⟨?_, ?_⟩⟩
    · rw [s.hostWrite_reg (r := .cmd) rfl]
      simp [State.writeReg, State.writeCmd, State.busy, hp]
    · rw [hreg (r := .twCfg) rfl _ rfl, TxWindow.configure_eq, TwCfg.ofWord, ← hm, Mode.ofBits_bits]
    · rw [hreg (r := .rbCfg) rfl _ rfl, Reorder.configure_eq, ← hm, Mode.ofBits_bits]
  · rw [s.hostWrite_reg (r := .evtPop) rfl, State.writeReg, State.popEvent, he]
  · rw [s.hostWrite_reg (r := .evtPop) rfl, State.writeReg, State.popEvent_cons he]

/-! ### What the stored registers read as (R31, R42) -/

/-- TW_CFG bit by bit: MODE from bit 0, N from bit 8, MAX_RETRIES from bit 16, CONN_LIMIT at bit 24. -/
theorem TwCfg.word_getLsbD (c : TwCfg) {i : Nat} (hi : i < 32) :
    c.word.getLsbD i = (c.mode.bits.getLsbD i || !decide (i < 8) && c.n.getLsbD (i - 8) ||
      !decide (i < 16) && c.maxRetries.getLsbD (i - 16) || c.connLimit && decide (i = 24)) := by
  have h8 : i - 8 < 32 := by omega
  have h16 : i - 16 < 32 := by omega
  simp only [TwCfg.word, BitVec.getLsbD_or, BitVec.getLsbD_shiftLeft, BitVec.getLsbD_setWidth, bitAt_getLsbD _ _ _ hi, hi, h8, h16,
    decide_true, Bool.true_and]

theorem TwCfg.word_mode (c : TwCfg) : c.word.extractLsb' 0 2 = c.mode.bits := by
  apply BitVec.eq_of_getLsbD_eq
  intro j hj
  rw [BitVec.getLsbD_extractLsb', c.word_getLsbD (by omega)]
  simp [hj, show j < 8 by omega, show j < 16 by omega, show j ≠ 24 by omega]

theorem TwCfg.word_reserved_low (c : TwCfg) : c.word.extractLsb' 2 6 = 0#6 := by
  apply BitVec.eq_of_getLsbD_eq
  intro j hj
  rw [BitVec.getLsbD_extractLsb', c.word_getLsbD (by omega)]
  simp [show 2 + j < 8 by omega, show 2 + j < 16 by omega, show 2 + j ≠ 24 by omega]

theorem TwCfg.word_n (c : TwCfg) : c.word.extractLsb' 8 8 = c.n := by
  apply BitVec.eq_of_getLsbD_eq
  intro j hj
  rw [BitVec.getLsbD_extractLsb', c.word_getLsbD (by omega)]
  simp [hj, show 8 + j < 16 by omega, show 8 + j ≠ 24 by omega, BitVec.getLsbD_of_ge c.mode.bits (8 + j) (by omega)]

theorem TwCfg.word_maxRetries (c : TwCfg) : c.word.extractLsb' 16 8 = c.maxRetries := by
  apply BitVec.eq_of_getLsbD_eq
  intro j hj
  rw [BitVec.getLsbD_extractLsb', c.word_getLsbD (by omega)]
  simp [hj, show 16 + j ≠ 24 by omega, BitVec.getLsbD_of_ge c.mode.bits (16 + j) (by omega),
    BitVec.getLsbD_of_ge c.n (16 + j - 8) (by omega)]

theorem TwCfg.word_connLimit (c : TwCfg) : c.word.getLsbD 24 = c.connLimit := by
  rw [c.word_getLsbD (by decide)]
  simp

theorem TwCfg.word_reserved_high (c : TwCfg) : c.word.extractLsb' 25 7 = 0#7 := by
  apply BitVec.eq_of_getLsbD_eq
  intro j hj
  rw [BitVec.getLsbD_extractLsb', c.word_getLsbD (by omega)]
  simp [show 25 + j ≠ 24 by omega, BitVec.getLsbD_of_ge c.mode.bits (25 + j) (by omega),
    BitVec.getLsbD_of_ge c.n (25 + j - 8) (by omega), BitVec.getLsbD_of_ge c.maxRetries (25 + j - 16) (by omega)]

/-- RB_CFG is TW_CFG's layout with the two fields it has. -/
theorem Reorder.cfgWord_eq (rb : Reorder) :
    rb.cfgWord = ({ mode := rb.mode, n := rb.n, maxRetries := 0#8, connLimit := false } : TwCfg).word := by
  simp [Reorder.cfgWord, TwCfg.word, bitAt, bitNat]

theorem Reorder.cfgWord_reserved_high (rb : Reorder) : rb.cfgWord.extractLsb' 16 16 = 0#16 := by
  rw [rb.cfgWord_eq]
  apply BitVec.eq_of_getLsbD_eq
  intro j hj
  rw [BitVec.getLsbD_extractLsb', TwCfg.word_getLsbD _ (by omega)]
  simp [BitVec.getLsbD_of_ge rb.mode.bits (16 + j) (by omega), BitVec.getLsbD_of_ge rb.n (16 + j - 8) (by omega)]

/-- Settles O48: the map and the stored registers by evaluation, the configuration registers by their fields. -/
theorem storedRegistersRead : Obligations.StoredRegistersRead := by
  intro s
  have hread {a : Nat} {r : Reg} (ha : regAt a = some r) : s.hostRead .word a = { s with rdata := s.readReg r } := s.hostRead_reg ha
  refine ⟨hread rfl, hread rfl, hread rfl, hread rfl, hread rfl, hread rfl, hread rfl, hread rfl, hread rfl, hread rfl, hread rfl,
    hread rfl, hread rfl, hread rfl, hread rfl, hread rfl, hread rfl, hread rfl, hread rfl, hread rfl, hread rfl, hread rfl,
    hread rfl, hread rfl, hread rfl, hread rfl, hread rfl, hread rfl, hread rfl, hread rfl, hread rfl, hread rfl, hread rfl,
    hread rfl, hread rfl, hread rfl, hread rfl, hread rfl, hread rfl, hread rfl, rfl, rfl, rfl, rfl, rfl, rfl, rfl, rfl,
    rfl, rfl, rfl, rfl, rfl, rfl, rfl, rfl, rfl, rfl, rfl, rfl, rfl, rfl, rfl, rfl, rfl, rfl, rfl, rfl, rfl, rfl, rfl,
    s.tw.cfg.word_mode, s.tw.cfg.word_reserved_low, s.tw.cfg.word_n, s.tw.cfg.word_maxRetries, s.tw.cfg.word_connLimit,
    s.tw.cfg.word_reserved_high, ?_, ?_, ?_, s.rb.cfgWord_reserved_high⟩
  · exact (congrArg (BitVec.extractLsb' 0 2) s.rb.cfgWord_eq).trans (TwCfg.word_mode _)
  · exact (congrArg (BitVec.extractLsb' 2 6) s.rb.cfgWord_eq).trans (TwCfg.word_reserved_low _)
  · exact (congrArg (BitVec.extractLsb' 8 8) s.rb.cfgWord_eq).trans (TwCfg.word_n _)

/-! ### The two resets (R340, R341, R343) -/

/-- Settles O50: the reset table register by register, a CTRL write by bit 0. -/
theorem resetsRestoreEverything : Obligations.ResetsRestoreEverything := by
  refine ⟨fun r => ?_, rfl, fun s => ⟨fun w hw => ?_, fun w hw => ?_, rfl⟩⟩
  · cases r <;> rfl
  · rw [s.hostWrite_reg (r := .ctrl) rfl]
    exact if_pos hw
  · rw [s.hostWrite_reg (r := .ctrl) rfl]
    exact if_neg (hw ▸ Bool.false_ne_true)

/-- Settles O54, unit by unit. -/
theorem invariantsHoldAtReset : Obligations.InvariantsHoldAtReset :=
  have hb : Bounds State.reset := bounds_reset State.reset State.reset.mem
  ⟨twInv_resetTxWindow, rbInv_resetReorder, hb.queues, hb.latch, ⟨rfl, List.forall_mem_nil _⟩, hb.err, .inl rfl⟩

end Sys2Proof.Machine
end
